-- ==== Sys2Proof/Word.lean ====
section
/-! DEFINITION. The widths of the machine (spec/00_scope.md R6, R7; spec/10_state.md R20 to R33). Every value is
unsigned; there is no signed reading anywhere in this ISA (R7). -/

namespace Sys2Proof

/-- A `u8`: a general register, a timer, a byte of memory (R7). -/
abbrev Byte := BitVec 8

/-- A `u16`: an instruction word, PC, I, a stack slot (R7). -/
abbrev Word := BitVec 16

/-- A register index, always a 4-bit field of the instruction word, so it always names one of V0..VF (R21). -/
abbrev Reg := BitVec 4

/-- The 12-bit address immediate NNN (R73). -/
abbrev Addr12 := BitVec 12

/-- `VF`, the last register, which is also the flag register (R22). -/
abbrev regF : Reg := 15#4

/-- `V0`, the register BNNN adds (R104). -/
abbrev reg0 : Reg := 0#4

end Sys2Proof
end

