-- ==== Sys2Proof/Config.lean ====
section
/-! DEFINITION. What is fixed for one machine and is not state (spec/10_state.md R36; the table of spec/00_scope.md R5):
the sizes the spec gives, and the parameters it calls OPEN, which are constants with no body, so that nothing can be
proved from a particular value of theirs. -/

namespace Sys2Proof.Config

/-- Memory size in bytes (R5, R33). -/
abbrev memSize : Nat := 4096

/-- The highest address, 0xFFF (R50). -/
abbrev topAddr : Nat := 0xFFF

/-- The program load address and the reset vector (R5, R57, R243). -/
abbrev programBase : Nat := 0x200

/-- The largest ROM, 4096 - 0x200 bytes (R5, R242; spec decision D23, log entry 21). -/
abbrev maxRomBytes : Nat := 3584

/-- Bytes of the font table: 16 glyphs of 5 (R57). -/
abbrev fontBytes : Nat := 80

/-- Screen columns (R5, R32; spec decision D3, log entry 15). -/
abbrev screenW : Nat := 64

/-- Screen rows (R5, R32; spec decision D3, log entry 15). -/
abbrev screenH : Nat := 32

/-- The call stack has 25 slots (R27; spec decision D7, log entry 17). -/
abbrev stackSlots : Nat := 25

/-- The two readings of FX29 for Vx > 15 that the spec leaves OPEN (R162, decision D6). -/
inductive FontDigit where
  | unmasked
  | masked
  deriving DecidableEq, Repr, Inhabited

/-- FONT_BASE. OPEN: any value with FONT_BASE + 80 <= 0x200, that is 0..432 (R5, decision D4; log entry 3). -/
opaque fontBase : Fin 433

/-- FONT_TABLE. OPEN: any 80 bytes (R58, decision D5; log entry 3). -/
opaque fontTable : Vector Byte 80

/-- FONT_DIGIT_ADDR. OPEN (R5, R162, decision D6; log entry 4). -/
opaque fontDigitAddr : FontDigit

/-- The random byte of the k-th execution of CXNN: any byte, under no law (R10, R143, decision D18; log entry 2). -/
opaque drawByte : Nat → Byte

/-- CPU_HZ. OPEN (R5, decision D25; log entry 11). -/
opaque cpuHz : Nat

/-- FRAME_HZ. OPEN (R5, decision D25; log entry 11). -/
opaque frameHz : Nat

/-- The value of FONT_TABLE the spec recommends and its test vectors use (R58, from general knowledge, not in source).
The machine does not use it: it reads `fontTable`, which may be any table. -/
def standardFontTable : Vector Byte 80 := #v[
  0xF0, 0x90, 0x90, 0x90, 0xF0,  0x20, 0x60, 0x20, 0x20, 0x70,
  0xF0, 0x10, 0xF0, 0x80, 0xF0,  0xF0, 0x10, 0xF0, 0x10, 0xF0,
  0x90, 0x90, 0xF0, 0x10, 0x10,  0xF0, 0x80, 0xF0, 0x10, 0xF0,
  0xF0, 0x80, 0xF0, 0x90, 0xF0,  0xF0, 0x10, 0x20, 0x40, 0x40,
  0xF0, 0x90, 0xF0, 0x90, 0xF0,  0xF0, 0x90, 0xF0, 0x10, 0xF0,
  0xF0, 0x90, 0xF0, 0x90, 0x90,  0xE0, 0x90, 0xE0, 0x90, 0xE0,
  0xF0, 0x80, 0x80, 0x80, 0xF0,  0xE0, 0x90, 0x90, 0x90, 0xE0,
  0xF0, 0x80, 0xF0, 0x80, 0xF0,  0xF0, 0x80, 0xF0, 0x80, 0x80]

end Sys2Proof.Config
end

