-- ==== Sys2Proof/Machine/State.lean ====
section
/-! DEFINITION. The state of the block (spec/10_state.md), the reasons a step stops, and the state after reset
(spec/70_reset_and_hazards.md R240). Plain data throughout. -/

namespace Sys2Proof.Machine

/-- The bytes that differ from the memory's reset contents, by address (R33). Machine/Memory.lean gives the canonical
form and the reads and writes (log entry 6). -/
abbrev Memory := List Host.Cell

/-- `FB[px][py]`: 64 columns of 32 pixels, each unset or set (R32). -/
abbrev Framebuffer := Vector (Vector Bool Config.screenH) Config.screenW

/-- The key latch: NONE, or one of the key codes 0..15 (R31). -/
abbrev KeyLatch := Option (Fin 16)

/-- Where an out-of-bounds address was computed (R211). -/
inductive Site where
  | fetch
  | read
  | write
  | index
  | jump
  deriving DecidableEq, Repr

/-- The four kinds of fault (R211). An out-of-bounds address is an exact natural number, which may not fit in 16 bits
(R7, R104). -/
inductive FaultKind where
  | unknownOpcode
  | stackOverflow
  | stackUnderflow
  | outOfBounds (site : Site) (address : Nat)
  deriving DecidableEq, Repr

/-- What a fault records: its kind, the word being executed (absent for a fetch that itself faulted) and the address of
that instruction (R34, R211, R212). -/
structure FaultInfo where
  kind : FaultKind
  opcode : Option Word
  pc : Word
  deriving DecidableEq, Repr

/-- The run status (R34). -/
inductive Status where
  | running
  | faulted (info : FaultInfo)
  deriving DecidableEq, Repr

/-- The state of the block. -/
structure State where
  /-- V0..VF (R20). -/
  v : Vector Byte 16
  /-- The program counter (R24). -/
  pc : Word
  /-- The index register I (R26). -/
  i : Word
  /-- The stack pointer, always 0..24 (R27). -/
  sp : Fin Config.stackSlots
  /-- The stack slots S[0]..S[24] (R27). -/
  stack : Vector Word Config.stackSlots
  /-- The delay timer DT (R29). -/
  dt : Byte
  /-- The sound timer ST (R30). -/
  st : Byte
  /-- The key latch KEY (R31). -/
  key : KeyLatch
  /-- The framebuffer FB (R32). -/
  fb : Framebuffer
  /-- The memory M (R33). -/
  mem : Memory
  /-- The run status (R34). -/
  status : Status
  /-- The model's own: how many random bytes CXNN has drawn (R10; log entry 2). -/
  draws : Nat
  deriving DecidableEq, Repr

/-- Why a step has no next state. -/
inductive Fault where
  /-- The machine is already in `Faulted`, which has no further step (R70, R214). Raised by `step`, `tick` and `setKey`
  on such a state, never by an instruction. Safe: the hardware does not go on either. -/
  | halted (info : FaultInfo)
  deriving DecidableEq, Repr

/-- Why the model gives no meaning. -/
inductive Refusal where
  /-- An instruction of the opcode table that has no meaning yet. No arm raises it. Safe. -/
  | notModelled (mnemonic : String)
  /-- A ROM that is too large for memory: the reset does not complete and no run exists (R242, I16). Raised by the
  operation `resetWith`, never by a step. Safe. -/
  | romTooLarge (bytes : Nat)
  deriving DecidableEq, Repr

/-- What an operation of the block answers. -/
abbrev Result := Host.Outcome State Fault Refusal

/-- Every pixel unset. -/
def Framebuffer.blank : Framebuffer := Vector.replicate Config.screenW (Vector.replicate Config.screenH false)

/-- The machine right after reset, with no ROM (R240, R241, R243, R245; log entries 5 and 7). -/
def State.reset : State where
  v := Vector.replicate 16 0
  pc := BitVec.ofNat 16 Config.programBase
  i := 0
  sp := 0
  stack := Vector.replicate Config.stackSlots 0
  dt := 0
  st := 0
  key := none
  fb := Framebuffer.blank
  mem := []
  status := .running
  draws := 0

end Sys2Proof.Machine
end

