-- ==== Sys2Proof/Machine/Flags.lean ====
section
/-! DEFINITION. The flag computations (spec/10_state.md R22, R23; spec/42_register_alu.md R141). VF holds 0 or 1 after
each of them. -/

namespace Sys2Proof.Machine

/-- A flag as the byte VF takes: 1 or 0. -/
def flagByte (b : Bool) : Byte := if b then 1 else 0

/-- Carry out of an add: the exact sum exceeds 255 (R136, R141). -/
def carryOut (a b : Byte) : Bool := decide (a.toNat + b.toNat > 255)

/-- The flag of a subtract: set when NOT borrowing, that is minuend >= subtrahend (R137, R139, R141). -/
def noBorrow (minuend subtrahend : Byte) : Bool := decide (minuend.toNat ≥ subtrahend.toNat)

/-- The bit a right shift takes out: the pre-shift least significant bit (R138). -/
def lowBit (a : Byte) : Bool := a.getLsbD 0

/-- The bit a left shift takes out: the pre-shift most significant bit (R140). -/
def highBit (a : Byte) : Bool := a.getLsbD 7

end Sys2Proof.Machine
end

