-- ==== Sys2Proof/Machine/Memory.lean ====
section
/-! DEFINITION. Memory (spec/20_memory.md): one-byte reads and writes (R52) over plain storage (R56), the contents after
reset (R57, R241), and the canonical form. -/

namespace Sys2Proof.Machine

/-- The byte at an address after reset with no ROM, for a given font base and table: zero everywhere but the font table,
which lies wholly below the program region (R57, R241). -/
def initByteOf (base : Fin 433) (table : Vector Byte 80) (a : Nat) : Byte :=
  if Config.programBase ≤ a then 0
  else if h : base.val ≤ a ∧ a - base.val < Config.fontBytes then table[a - base.val]'h.2
  else 0

/-- What an unlisted address reads as: the reset contents with this machine's font (log entries 3 and 6). -/
def initByte (a : Nat) : Byte := initByteOf Config.fontBase Config.fontTable a

/-- The entry listed for an address. -/
def Memory.find (a : Nat) : Memory → Option Byte
  | [] => none
  | (b, u) :: m => if b = a then some u else Memory.find a m

/-- `MemRead(a, 1)` (R8, R52). The bounds of R55 are the instruction's own check. -/
def Memory.read (m : Memory) (a : Nat) : Byte := (Memory.find a m).getD (initByte a)

/-- Put an entry at its place among rising addresses. -/
def Memory.insert (a : Nat) (v : Byte) : Memory → Memory
  | [] => [(a, v)]
  | (b, u) :: m =>
    if a < b then (a, v) :: (b, u) :: m
    else if b = a then (a, v) :: m
    else (b, u) :: Memory.insert a v m

/-- Take out the entries of an address. -/
def Memory.erase (a : Nat) : Memory → Memory
  | [] => []
  | (b, u) :: m => if b = a then Memory.erase a m else (b, u) :: Memory.erase a m

/-- `MemWrite(a, 1, v)` (R8, R52), keeping the canonical form: writing what an unlisted address reads as removes the
entry. -/
def Memory.write (m : Memory) (a : Nat) (v : Byte) : Memory :=
  if v = initByte a then Memory.erase a m else Memory.insert a v m

/-- The canonical form from a lowest address on: addresses strictly rising and below 4096, no entry equal to what an
unlisted address reads as. -/
def Memory.wfFrom (lo : Nat) : Memory → Bool
  | [] => true
  | (a, v) :: m => decide (lo ≤ a) && decide (a < Config.memSize) && decide (v ≠ initByte a) && Memory.wfFrom (a + 1) m

/-- The canonical form. -/
def Memory.wf (m : Memory) : Bool := Memory.wfFrom 0 m

/-- One-byte writes at consecutive ascending addresses (R52). -/
def Memory.storeBytes (m : Memory) (a : Nat) : List Byte → Memory
  | [] => m
  | b :: bs => Memory.storeBytes (Memory.write m a b) (a + 1) bs

/-- One-byte reads at `n` consecutive ascending addresses (R52). -/
def Memory.loadBytes (m : Memory) (a : Nat) : Nat → List Byte
  | 0 => []
  | n + 1 => Memory.read m a :: Memory.loadBytes m (a + 1) n

end Sys2Proof.Machine
end

