-- ==== Sys2Proof/Machine/Operands.lean ====
section
/-! DEFINITION. Operand forms (spec/30_encoding.md R73, spec/43_index_memory.md R166) and the 8-bit results of
spec/42_register_alu.md R141, which are computed exactly and reduced modulo 256. -/

namespace Sys2Proof.Machine

/-- `zext_16(NNN)` (R7, R73). -/
def zext12 (nnn : Addr12) : Word := nnn.setWidth 16

/-- `V[i]`, a register operand (R8). -/
def State.reg (s : State) (x : Reg) : Byte := s.v[x.toNat]'x.isLt

/-- `I + k`, the one data addressing mode; an exact sum, never wrapped (R7, R55, R166). -/
def State.indexed (s : State) (k : Nat) : Nat := s.i.toNat + k

/-- The registers V0..VX, in order (R164). -/
def State.regsUpTo (s : State) (x : Reg) : List Byte := s.v.toList.take (x.toNat + 1)

/-- `(a + b) mod 256` (R131, R136, R141). -/
def addByte (a b : Byte) : Byte := BitVec.ofNat 8 (a.toNat + b.toNat)

/-- `(a - b) mod 256` (R137, R139, R141). -/
def subByte (a b : Byte) : Byte := BitVec.ofInt 8 ((a.toNat : Int) - (b.toNat : Int))

/-- `a >> 1`, logical (R138). -/
def shrByte (a : Byte) : Byte := a >>> 1

/-- `(a << 1) mod 256` (R140). -/
def shlByte (a : Byte) : Byte := BitVec.ofNat 8 (a.toNat * 2)

/-- The three decimal digits of a byte: hundreds, tens, ones (R163). -/
def decimalDigits (v : Byte) : List Byte :=
  [BitVec.ofNat 8 (v.toNat / 100), BitVec.ofNat 8 (v.toNat / 10 % 10), BitVec.ofNat 8 (v.toNat % 10)]

/-- The digit FX29 takes from Vx, under either reading of FONT_DIGIT_ADDR (R162, decision D6). -/
def fontDigitOf (choice : Config.FontDigit) (v : Byte) : Nat :=
  match choice with
  | .masked => (v &&& 0x0F#8).toNat
  | .unmasked => v.toNat

/-- `FONT_BASE + 5 * d` (R162). -/
def fontAddrOf (choice : Config.FontDigit) (base : Fin 433) (v : Byte) : Nat := base.val + 5 * fontDigitOf choice v

/-- The glyph address FX29 writes to I on this machine (R162; log entries 3 and 4). -/
def fontAddr (v : Byte) : Word := BitVec.ofNat 16 (fontAddrOf Config.fontDigitAddr Config.fontBase v)

/-- `code(KEY)` as a byte (R193, R195). -/
def keyCode (k : Fin 16) : Byte := BitVec.ofNat 8 k.val

/-- Is the latched key the one whose code is the whole byte? Never for a byte above 15 (R193, R194, decision D16). -/
def keyIs (key : KeyLatch) (v : Byte) : Bool :=
  match key with
  | some k => decide (keyCode k = v)
  | none => false

end Sys2Proof.Machine
end

