-- ==== Sys2Proof/Machine/Ops.lean ====
section
/-! DEFINITION. The named operations over the state that the meanings share: register and PC writes, the call stack,
taking a fault and the bounds check before it, drawing a random byte. The machine has no trap entry and no return from
one (spec/60_exceptions.md R217, R218): a fault sets the status, and nothing leads back. -/

namespace Sys2Proof.Machine

/-- `V[i] <- v` (R8). -/
def State.setReg (s : State) (x : Reg) (v : Byte) : State := { s with v := s.v.set x.toNat v x.isLt }

/-- Write the result to V[X], then the flag to VF, in that order, so that with X = F the flag stays (R142). -/
def State.setResultAndFlag (s : State) (x : Reg) (result : Byte) (flag : Bool) : State :=
  (s.setReg x result).setReg regF (flagByte flag)

/-- `PC <- target` (R100 c). -/
def State.jumpTo (s : State) (target : Word) : State := { s with pc := target }

/-- `PC <- PC + 2`, the default (R100 a). -/
def State.advance (s : State) : State := s.jumpTo (s.pc + 2#16)

/-- `PC <- PC + 4`, a taken skip (R100 b). -/
def State.skip (s : State) : State := s.jumpTo (s.pc + 4#16)

/-- A conditional skip (R100 a, b). -/
def State.skipIf (s : State) (cond : Bool) : State := if cond then s.skip else s.advance

/-- `I <- v` (R26). -/
def State.setIndex (s : State) (v : Word) : State := { s with i := v }

/-- `DT <- v` (R29). -/
def State.setDelay (s : State) (v : Byte) : State := { s with dt := v }

/-- `ST <- v` (R30). -/
def State.setSound (s : State) (v : Byte) : State := { s with st := v }

/-- `KEY <- k` (R31). -/
def State.setLatch (s : State) (k : KeyLatch) : State := { s with key := k }

/-- Replace the framebuffer (R32). -/
def State.setScreen (s : State) (fb : Framebuffer) : State := { s with fb := fb }

/-- Replace the memory (R33). -/
def State.setMem (s : State) (m : Memory) : State := { s with mem := m }

/-- Replace the run status (R34). -/
def State.setStatus (s : State) (st : Status) : State := { s with status := st }

/-- `raise Fault(kind, info)`: the status becomes Faulted with the kind, the word and the instruction's own address, and
nothing else is written (R9, R212, R213; log entry 1). -/
def State.raise (s : State) (kind : FaultKind) (opcode : Option Word) : Result :=
  .next (s.setStatus (.faulted ⟨kind, opcode, s.pc⟩))

/-- The bounds check on one computed address, before anything is written (R55, R213). -/
def State.guardAddr (s : State) (site : Site) (address : Nat) (opcode : Word) (go : Result) : Result :=
  if address > Config.topAddr then s.raise (.outOfBounds site address) (some opcode) else go

/-- The bounds check on an access of `count` bytes from I on: the highest address decides and is the one recorded, and
an access of no byte has none (R55, R166, R181; 90_conflicts.md C10). -/
def State.guardAccess (s : State) (site : Site) (count : Nat) (opcode : Word) (go : Result) : Result :=
  if count = 0 then go else s.guardAddr site (s.indexed (count - 1)) opcode go

/-- The stack slot S[k]. -/
def State.slot (s : State) (k : Fin Config.stackSlots) : Word := s.stack[k.val]'k.isLt

/-- `SP <- SP + 1; S[SP] <- value`, for SP < 24 (R28). -/
def State.push (s : State) (value : Word) : State :=
  { s with sp := s.sp + 1, stack := s.stack.set (s.sp + 1).val value (s.sp + 1).isLt }

/-- `SP <- SP - 1`, for SP > 0; the popped slot keeps its value (R28, R101). -/
def State.pop (s : State) : State := { s with sp := s.sp - 1 }

/-- `draw_u8()`: the next free byte, and the count of draws moves on (R10; log entry 2). -/
def State.drawn (s : State) : Byte := Config.drawByte s.draws

/-- The state after one draw. -/
def State.countDraw (s : State) : State := { s with draws := s.draws + 1 }

end Sys2Proof.Machine
end

