-- ==== Sys2Proof/Machine/Alu.lean ====
section
/-! DEFINITION. Register loads and the 8-bit ALU (spec/42_register_alu.md). Every instruction here ends with PC + 2 and
raises no fault. Operands are read from the state before the instruction (R11, R142). -/

namespace Sys2Proof.Machine

/-- The shape of the instructions that write one register and no flag. -/
def writeReg (x : Reg) (result : Byte) (s : State) : Result := .next (s.setReg x result).advance

/-- The shape of the instructions that write a result and then VF (R142). -/
def writeRegFlag (x : Reg) (result : Byte) (flag : Bool) (s : State) : Result :=
  .next (s.setResultAndFlag x result flag).advance

/-- 6XNN LD Vx, NN (R130). -/
def execLdImm (x : Reg) (nn : Byte) (s : State) : Result := writeReg x nn s

/-- 7XNN ADD Vx, NN (R131): no flag (decision D10, log entry 13). -/
def execAddImm (x : Reg) (nn : Byte) (s : State) : Result := writeReg x (addByte (s.reg x) nn) s

/-- 8XY0 LD Vx, Vy (R132). -/
def execLdReg (x y : Reg) (s : State) : Result := writeReg x (s.reg y) s

/-- 8XY1 OR Vx, Vy (R133): no flag (decision D10). -/
def execOr (x y : Reg) (s : State) : Result := writeReg x (s.reg x ||| s.reg y) s

/-- 8XY2 AND Vx, Vy (R134): no flag (decision D10). -/
def execAnd (x y : Reg) (s : State) : Result := writeReg x (s.reg x &&& s.reg y) s

/-- 8XY3 XOR Vx, Vy (R135): no flag (decision D10). -/
def execXor (x y : Reg) (s : State) : Result := writeReg x (s.reg x ^^^ s.reg y) s

/-- 8XY4 ADD Vx, Vy (R136). -/
def execAddReg (x y : Reg) (s : State) : Result :=
  writeRegFlag x (addByte (s.reg x) (s.reg y)) (carryOut (s.reg x) (s.reg y)) s

/-- 8XY5 SUB Vx, Vy (R137). -/
def execSub (x y : Reg) (s : State) : Result :=
  writeRegFlag x (subByte (s.reg x) (s.reg y)) (noBorrow (s.reg x) (s.reg y)) s

/-- 8XY6 SHR Vx (R138): the shift is of V[X] itself. -/
def execShr (x : Reg) (s : State) : Result := writeRegFlag x (shrByte (s.reg x)) (lowBit (s.reg x)) s

/-- 8XY7 SUBN Vx, Vy (R139): V[Y] is the minuend. -/
def execSubn (x y : Reg) (s : State) : Result :=
  writeRegFlag x (subByte (s.reg y) (s.reg x)) (noBorrow (s.reg y) (s.reg x)) s

/-- 8XYE SHL Vx (R140): the shift is of V[X] itself. -/
def execShl (x : Reg) (s : State) : Result := writeRegFlag x (shlByte (s.reg x)) (highBit (s.reg x)) s

/-- CXNN with a given drawn byte (R143): every claim about CXNN holds for every byte. -/
def rndWith (r : Byte) (x : Reg) (nn : Byte) (s : State) : Result := writeReg x (r &&& nn) s

/-- CXNN RND Vx, NN (R143): the byte is the next free draw (R10, log entry 2). -/
def execRnd (x : Reg) (nn : Byte) (s : State) : Result := rndWith s.drawn x nn s.countDraw

end Sys2Proof.Machine
end

