-- ==== Sys2Proof/Machine/Control.lean ====
section
/-! DEFINITION. Control transfer (spec/41_control_flow.md): RET, JP, CALL, JP V0 and the register skips. -/

namespace Sys2Proof.Machine

/-- 00EE RET (R101). -/
def execRet (s : State) : Result :=
  if s.sp = 0 then s.raise .stackUnderflow (some (encode .ret))
  else .next (s.pop.jumpTo (s.slot s.sp))

/-- 1NNN JP (R102). -/
def execJp (nnn : Addr12) (s : State) : Result := .next (s.jumpTo (zext12 nnn))

/-- 2NNN CALL (R103). -/
def execCall (nnn : Addr12) (s : State) : Result :=
  if s.sp = 24 then s.raise .stackOverflow (some (encode (.call nnn)))
  else .next ((s.push (s.pc + 2#16)).jumpTo (zext12 nnn))

/-- BNNN JP V0 (R104): the target is an exact sum, checked at the jump. -/
def execJpV0 (nnn : Addr12) (s : State) : Result :=
  let t := (zext12 nnn).toNat + (s.reg reg0).toNat
  s.guardAddr .jump t (encode (.jpV0 nnn)) (.next (s.jumpTo (BitVec.ofNat 16 t)))

/-- 3XNN SE Vx, NN (R105). -/
def execSeImm (x : Reg) (nn : Byte) (s : State) : Result := .next (s.skipIf (decide (s.reg x = nn)))

/-- 4XNN SNE Vx, NN (R106). -/
def execSneImm (x : Reg) (nn : Byte) (s : State) : Result := .next (s.skipIf (decide (s.reg x ≠ nn)))

/-- 5XY0 SE Vx, Vy (R107). -/
def execSeReg (x y : Reg) (s : State) : Result := .next (s.skipIf (decide (s.reg x = s.reg y)))

/-- 9XY0 SNE Vx, Vy (R108). -/
def execSneReg (x y : Reg) (s : State) : Result := .next (s.skipIf (decide (s.reg x ≠ s.reg y)))

end Sys2Proof.Machine
end

