-- ==== Sys2Proof/Machine/Display.lean ====
section
/-! DEFINITION. The framebuffer instructions (spec/44_display.md): CLS and DRW. -/

namespace Sys2Proof.Machine

/-- A screen position: column and row (R32). -/
abbrev Pixel := Fin Config.screenW × Fin Config.screenH

/-- `FB[px][py]` (R8, R32). -/
def Framebuffer.get (fb : Framebuffer) (p : Pixel) : Bool := (fb[p.1.val]'p.1.isLt)[p.2.val]'p.2.isLt

/-- `FB[px][py] <- FB[px][py] xor 1` (R181). -/
def Framebuffer.flip (fb : Framebuffer) (p : Pixel) : Framebuffer :=
  fb.set p.1.val ((fb[p.1.val]'p.1.isLt).set p.2.val (!fb.get p) p.2.isLt) p.1.isLt

/-- `((x0 + k) mod SCREEN_W, (y0 + r) mod SCREEN_H)`: each pixel wraps on its own, on each axis (R182). -/
def wrapPixel (x y : Nat) : Pixel := (Fin.ofNat Config.screenW x, Fin.ofNat Config.screenH y)

/-- The pixels of one sprite row, from left to right: bit 7 is the leftmost (R182). -/
def rowPixels (x0 y : Nat) (b : Byte) : List Pixel :=
  (List.range 8).filterMap fun k => if b.getLsbD (7 - k) then some (wrapPixel (x0 + k) y) else none

/-- The pixels of a sprite, row by row downwards (R181, R182). -/
def spritePixels (x0 y0 : Nat) : List Byte → List Pixel
  | [] => []
  | b :: bs => rowPixels x0 y0 b ++ spritePixels x0 (y0 + 1) bs

/-- One pixel of a sprite: a set pixel is a collision, and the pixel is flipped (R181). -/
def blitPixel (acc : Framebuffer × Bool) (p : Pixel) : Framebuffer × Bool := (acc.1.flip p, acc.2 || acc.1.get p)

/-- The whole sprite, in the order of R181's loops. -/
def blit (fb : Framebuffer) (ps : List Pixel) : Framebuffer × Bool := ps.foldl blitPixel (fb, false)

/-- Draw the sprite's rows at (x0, y0): the framebuffer, then VF (R181, R142). -/
def State.drawSprite (s : State) (x0 y0 : Nat) (rows : List Byte) : State :=
  let r := blit s.fb (spritePixels x0 y0 rows)
  (s.setScreen r.1).setReg regF (flagByte r.2)

/-- 00E0 CLS (R180). -/
def execCls (s : State) : Result := .next (s.setScreen Framebuffer.blank).advance

/-- DXYN DRW Vx, Vy, N (R181): every row's address is checked before any pixel changes, and the coordinates are the
registers' values before VF is written. -/
def execDrw (x y : Reg) (n : BitVec 4) (s : State) : Result :=
  s.guardAccess .read n.toNat (encode (.drw x y n))
    (.next (s.drawSprite (s.reg x).toNat (s.reg y).toNat (s.mem.loadBytes (s.indexed 0) n.toNat)).advance)

end Sys2Proof.Machine
end

