-- ==== Sys2Proof/Machine/Index.lean ====
section
/-! DEFINITION. The index register and the memory transfers (spec/43_index_memory.md). Every instruction here ends with
PC + 2; I is written by ANNN, FX1E and FX29 only. -/

namespace Sys2Proof.Machine

/-- ANNN LD I, NNN (R160). -/
def execLdI (nnn : Addr12) (s : State) : Result := .next (s.setIndex (zext12 nnn)).advance

/-- FX1E ADD I, Vx (R161): the exact sum is checked before it is written. -/
def execAddI (x : Reg) (s : State) : Result :=
  let t := s.i.toNat + (s.reg x).toNat
  s.guardAddr .index t (encode (.addI x)) (.next (s.setIndex (BitVec.ofNat 16 t)).advance)

/-- FX29 LD F, Vx (R162). -/
def execLdF (x : Reg) (s : State) : Result := .next (s.setIndex (fontAddr (s.reg x))).advance

/-- Store bytes from address I on (R163, R164). -/
def State.storeAtIndex (s : State) (bs : List Byte) : State := s.setMem (s.mem.storeBytes (s.indexed 0) bs)

/-- Load V0..VX from address I on; the registers above X keep their values (R165). -/
def State.loadRegs (s : State) (x : Reg) : State :=
  { s with v := Vector.ofFn fun k => if k.val ≤ x.toNat then s.mem.read (s.indexed k.val) else s.v[k.val]'k.isLt }

/-- FX33 LD B, Vx (R163). -/
def execLdB (x : Reg) (s : State) : Result :=
  s.guardAccess .write 3 (encode (.ldB x)) (.next (s.storeAtIndex (decimalDigits (s.reg x))).advance)

/-- FX55 LD [I], Vx (R164). -/
def execLdMemVx (x : Reg) (s : State) : Result :=
  s.guardAccess .write (x.toNat + 1) (encode (.ldMemVx x)) (.next (s.storeAtIndex (s.regsUpTo x)).advance)

/-- FX65 LD Vx, [I] (R165). -/
def execLdVxMem (x : Reg) (s : State) : Result :=
  s.guardAccess .read (x.toNat + 1) (encode (.ldVxMem x)) (.next (s.loadRegs x).advance)

end Sys2Proof.Machine
end

