-- ==== Sys2Proof/Machine/Keys.lean ====
section
/-! DEFINITION. The timer and keypad instructions (spec/45_timers_keys.md). None faults or writes VF as a flag, and none
writes the key latch. -/

namespace Sys2Proof.Machine

/-- FX07 LD Vx, DT (R190). -/
def execLdVxDt (x : Reg) (s : State) : Result := .next (s.setReg x s.dt).advance

/-- FX15 LD DT, Vx (R191). -/
def execLdDtVx (x : Reg) (s : State) : Result := .next (s.setDelay (s.reg x)).advance

/-- FX18 LD ST, Vx (R192). -/
def execLdStVx (x : Reg) (s : State) : Result := .next (s.setSound (s.reg x)).advance

/-- EX9E SKP Vx (R193). -/
def execSkp (x : Reg) (s : State) : Result := .next (s.skipIf (keyIs s.key (s.reg x)))

/-- EXA1 SKNP Vx (R194). -/
def execSknp (x : Reg) (s : State) : Result := .next (s.skipIf (!keyIs s.key (s.reg x)))

/-- FX0A LD Vx, K (R195): with no key latched the PC stays, so the instruction runs again on the next cycle. -/
def execLdVxK (x : Reg) (s : State) : Result :=
  match s.key with
  | none => .next s
  | some k => .next (s.setReg x (keyCode k)).advance

end Sys2Proof.Machine
end

