-- ==== Sys2Proof/Machine/Fetch.lean ====
section
/-! DEFINITION. Instruction fetch (spec/30_encoding.md R70, spec/20_memory.md R53) and what a cycle does before it
executes: the run status, the fetch bounds, then decode, in that order (spec/60_exceptions.md R215). -/

namespace Sys2Proof.Machine

/-- The word at an address: two one-byte reads, the byte at the lower address in bits 15:8 (R53). -/
def Memory.wordAt (m : Memory) (a : Nat) : Word := wordOfBytes (m.read a) (m.read (a + 1))

/-- The word at PC (R70). -/
def State.fetchWord (s : State) : Word := s.mem.wordAt s.pc.toNat

/-- The fetch bounds: PC <= 0xFFE (R55, R70). -/
def State.fetchInBounds (s : State) : Bool := decide (s.pc.toNat + 1 ≤ Config.topAddr)

/-- What a cycle finds before it executes. -/
inductive Fetched where
  | halted (info : FaultInfo)
  | outOfBounds
  | unknown (w : Word)
  | instr (i : Instr)
  deriving DecidableEq, Repr

/-- The checks of one cycle before execution, in the order of R215. -/
def fetchInstr (s : State) : Fetched :=
  match s.status with
  | .faulted info => .halted info
  | .running =>
    if s.fetchInBounds then
      match decode s.fetchWord with
      | some i => .instr i
      | none => .unknown s.fetchWord
    else .outOfBounds

/-- A fetch that itself faults records no opcode, and PC as the address (R211). -/
def raiseFetch (s : State) : Result := s.raise (.outOfBounds .fetch s.pc.toNat) none

/-- An unknown opcode, at decode, before any effect (R76). -/
def raiseUnknown (w : Word) (s : State) : Result := s.raise .unknownOpcode (some w)

/-- Store a word big-endian at an address (R53). -/
def Memory.storeWord (m : Memory) (a : Nat) (w : Word) : Memory := m.storeBytes a [(bytesOfWord w).1, (bytesOfWord w).2]

end Sys2Proof.Machine
end

