-- ==== Sys2Proof/Machine/Step.lean ====
section
/-! DEFINITION. The step: one call of `execute_cycle()` (spec/30_encoding.md R70). -/

namespace Sys2Proof.Machine

/-- One cycle (R70). A machine in `Faulted` has no further step (R214): that is the one stop of `step`. -/
def step (s : State) : Host.Outcome State Fault Refusal :=
  match fetchInstr s with
  | .halted info => .fault (.halted info)
  | .outOfBounds => raiseFetch s
  | .unknown w => raiseUnknown w s
  | .instr i => exec i s

/-- `s` with the instruction `w` of the opcode table stored big-endian at PC, where the next cycle fetches. For a
running machine with PC <= 0xFFE the next step runs it (log entry 7). -/
def State.withFetchWord (s : State) (nbits w : Nat) : State :=
  s.setMem (s.mem.storeBytes s.pc.toNat (tableBytes nbits w))

end Sys2Proof.Machine
end

