-- ==== Sys2Proof/Machine/HostOps.lean ====
section
/-! DEFINITION. The operations of the block other than `cycle` (spec/60_exceptions.md R226), each atomic (R227): the
reset with a ROM, the timer decay, the key sample, and the read-only views. In `Faulted` none of them but `status` has a
step (R214). -/

namespace Sys2Proof.Machine

/-- An operation that has a step only while the machine runs (R214). -/
def State.whileRunning (s : State) (go : Result) : Result :=
  match s.status with
  | .running => go
  | .faulted info => .fault (.halted info)

/-- One timer decays by one and saturates at zero (R221). -/
def decay (t : Byte) : Byte := if t = 0 then 0 else BitVec.ofNat 8 (t.toNat - 1)

/-- `tick()`: both timers decay, independently; nothing else is written (R221). -/
def tick (s : State) : Result := s.whileRunning (.next ((s.setDelay (decay s.dt)).setSound (decay s.st)))

/-- `set_key(k)`: writes KEY and nothing else (R224). -/
def setKey (k : KeyLatch) (s : State) : Result := s.whileRunning (.next (s.setLatch k))

/-- `status()`: answers in every state (R214, R226). -/
def statusOf (s : State) : Status := s.status

/-- The code of a fault kind (R211). -/
def FaultKind.code : FaultKind → Nat
  | .unknownOpcode => 1
  | .stackOverflow => 2
  | .stackUnderflow => 3
  | .outOfBounds _ _ => 4

/-- `read_fb()`: the host's read view of the framebuffer, which changes nothing; none in `Faulted` (R214, R225). -/
def readFb (s : State) : Option Framebuffer :=
  match s.status with
  | .running => some s.fb
  | .faulted _ => none

/-- `tone_on()`: ST is not zero; none in `Faulted` (R214, R223; log entry 19). -/
def toneOn (s : State) : Option Bool :=
  match s.status with
  | .running => some (decide (s.st ≠ 0))
  | .faulted _ => none

/-- `reset(rom)`: all state is set, memory is zero-filled, then holds the font, then the ROM unmodified at 0x200 (R240,
R241). A ROM that does not fit keeps the reset from completing (R242). -/
def resetWith (rom : List Byte) : Result :=
  if rom.length ≤ Config.maxRomBytes then
    .next (State.reset.setMem (State.reset.mem.storeBytes Config.programBase rom))
  else .refused (.romTooLarge rom.length)

end Sys2Proof.Machine
end

