-- ==== Sys2Proof/Machine/Schedule.lean ====
section
/-! DEFINITION. The host's schedule over the block's operations (spec/60_exceptions.md R229): in each frame the budget of
cycles, then the key sample, then the timer ticks, then a render, which only reads. The budget, the keys, the tick counts
and the renders are arguments, so that a claim can hold for every schedule of this shape (R222, R229; log entry 10). -/

namespace Sys2Proof.Machine

/-- Go on from a next state; a fault or a refusal ends the run. -/
def andThen (o : Result) (go : State → Result) : Result :=
  match o with
  | .next s => go s
  | .fault f => .fault f
  | .refused r => .refused r

/-- A batch of cycles, stopping early only at a fault (R229). -/
def runCycles : Nat → State → Result
  | 0, s => .next s
  | k + 1, s => andThen (step s) (runCycles k)

/-- A number of timer decays (R222). -/
def runTicks : Nat → State → Result
  | 0, s => .next s
  | k + 1, s => andThen (tick s) (runTicks k)

/-- What the host does at one frame boundary: the key it sampled, how many ticks it issues (any number, R222), and
whether it renders. -/
structure Boundary where
  key : KeyLatch
  ticks : Nat
  render : Bool
  deriving DecidableEq, Repr

/-- The boundary's operations that change the state, in the order of R229: the key sample, then the ticks. -/
def atBoundary (b : Boundary) (s : State) : Result := andThen (setKey b.key s) (runTicks b.ticks)

/-- One frame: every budgeted cycle, then the boundary (R229). -/
def runFrame (budget : Nat) (b : Boundary) (s : State) : Result := andThen (runCycles budget s) (atBoundary b)

/-- Frames one after another. -/
def runFrames (budget : Nat) : List Boundary → State → Result
  | [], s => .next s
  | b :: bs, s => andThen (runFrame budget b s) (runFrames budget bs)

/-- What the host sees in the frames it renders, after that frame's cycles and its decay (R229). -/
def rendered (budget : Nat) : List Boundary → State → List (Option Framebuffer)
  | [], _ => []
  | b :: bs, s =>
    match runFrame budget b s with
    | .next t => (if b.render then [readFb t] else []) ++ rendered budget bs t
    | .fault _ => []
    | .refused _ => []

/-- B = floor(CPU_HZ / FRAME_HZ), the reference Pacer's budget (R229, R250; log entry 11). -/
def cyclesPerFrame : Nat := Config.cpuHz / Config.frameHz

end Sys2Proof.Machine
end

