-- ==== Sys2Proof/Safety.lean ====
section
/-! DEFINITION. What claims call a good state and a safe run. -/

namespace Sys2Proof.Machine

/-- The recorded info is of the shape R211 gives: the opcode is absent exactly for a fetch that itself faulted, a fetch
records PC as its address, and every recorded address lies above 0xFFF, but for the fetch at 0xFFF. -/
def FaultInfo.wf (f : FaultInfo) : Bool :=
  match f.kind with
  | .outOfBounds .fetch a => decide (f.opcode = none) && decide (a = f.pc.toNat) && decide (Config.topAddr ≤ a)
  | .outOfBounds _ a => decide (f.opcode ≠ none) && decide (Config.topAddr < a)
  | _ => decide (f.opcode ≠ none)

/-- A running machine, or one that stopped at the instruction PC still points to (R212, R213). -/
def State.statusWf (s : State) : Bool :=
  match s.status with
  | .running => true
  | .faulted f => decide (f.pc = s.pc) && f.wf

/-- The invariant of the machine: memory in canonical form (R33); PC at most 0x1002, so no advance of it ever wraps
(R25); I at most 0xFFF (R26); no slot above 0x1000, the largest address a call pushes (R103), and S[0] never written
(R27); a recorded fault of the shape R211 gives, at the PC (R213). -/
structure State.Inv (s : State) : Prop where
  memWf : s.mem.wf = true
  pcBound : s.pc.toNat ≤ 0x1002
  indexBound : s.i.toNat ≤ 0xFFF
  slotBound : ∀ k : Fin Config.stackSlots, (s.slot k).toNat ≤ 0x1000
  slotZero : s.slot 0 = 0
  statusWf : s.statusWf = true

/-- A run of `k` cycles that neither faults nor stops. A run that reaches `Faulted` is a failed run (R214). -/
def runsSafely (k : Nat) (s : State) : Prop := ∃ t, Sys2Proof.core.run k s = .next t ∧ t.status = .running

/-- The end of a program's work: a running machine at a named address (R232). -/
def reaches (addr : Word) (s : State) : Prop :=
  ∃ k t, Sys2Proof.core.run k s = .next t ∧ t.status = .running ∧ t.pc = addr

end Sys2Proof.Machine
end

