-- ==== Sys2Proof/WellFormed.lean ====
section
/-! DEFINITION. Well-formedness. Every operand of an instruction has exactly the width of its field (Syntax.lean,
spec/30_encoding.md R71, R73), so there is no ill-formed instruction to refuse: "every index names an existing
register" (spec/10_state.md R21). The one input with a check of its own is a ROM. -/

namespace Sys2Proof

/-- Every instruction is well-formed: its fields cannot hold a value the encoding has no bits for (R21, R73). -/
def Instr.wf (_ : Instr) : Bool := true

/-- A ROM loads only if it fits above the load address; any length 0..3584 does, odd lengths included
(spec/70_reset_and_hazards.md R242). -/
def Rom.wf (rom : List Byte) : Bool := decide (rom.length ≤ Config.maxRomBytes)

end Sys2Proof
end

