-- ==== Sys2Proof/Certificates/Slice0/Obligations.lean ====
section
/-! DEFINITION. The statements for the provers. Each docstring names the rule of spec/ it formalises; where a clause rests
on a decision the spec marks as its own, or on a choice of the model, the docstring says so and names it. -/

namespace Sys2Proof.Claims

open Sys2Proof.Machine

/-! ## What stays: the frames, through the reads of each piece of state -/

/-- Every byte of memory reads as before. -/
def SameMem (s t : State) : Prop := ∀ a, t.mem.read a = s.mem.read a

/-- Every byte of memory outside the `n` bytes from `lo` on reads as before. -/
def SameMemOutside (lo n : Nat) (s t : State) : Prop := ∀ a, (a < lo ∨ lo + n ≤ a) → t.mem.read a = s.mem.read a

/-- Every register but `x` is as before. -/
def SameRegsBut (x : Reg) (s t : State) : Prop := ∀ r, r ≠ x → t.reg r = s.reg r

/-- Every register but `x` and VF is as before. -/
def SameRegsButFlag (x : Reg) (s t : State) : Prop := ∀ r, r ≠ x → r ≠ regF → t.reg r = s.reg r

/-- Every register is as before. -/
def SameRegs (s t : State) : Prop := ∀ r, t.reg r = s.reg r

/-- SP and every slot are as before. -/
def SameStack (s t : State) : Prop := t.sp = s.sp ∧ ∀ k, t.slot k = s.slot k

/-- Every pixel is as before. -/
def SameScreen (s t : State) : Prop := ∀ p, t.fb.get p = s.fb.get p

/-- DT and ST are as before. -/
def SameTimers (s t : State) : Prop := t.dt = s.dt ∧ t.st = s.st

/-- The key latch, the run status and the count of draws are as before. -/
def SameRun (s t : State) : Prop := t.key = s.key ∧ t.status = s.status ∧ t.draws = s.draws

/-- Nothing but registers and PC changed. -/
def SameBeyondRegs (s t : State) : Prop :=
  t.i = s.i ∧ SameStack s t ∧ SameTimers s t ∧ SameScreen s t ∧ SameMem s t ∧ SameRun s t

/-- Nothing but PC changed. -/
def OnlyPc (s t : State) : Prop := SameRegs s t ∧ SameBeyondRegs s t

/-- The instruction wrote register `x`, moved PC on by 2, and changed nothing else. -/
def WroteReg (x : Reg) (s t : State) : Prop := t.pc = s.pc + 2#16 ∧ SameRegsBut x s t ∧ SameBeyondRegs s t

/-- The instruction wrote register `x` and VF, moved PC on by 2, and changed nothing else. -/
def WroteRegFlag (x : Reg) (s t : State) : Prop := t.pc = s.pc + 2#16 ∧ SameRegsButFlag x s t ∧ SameBeyondRegs s t

/-- The instruction wrote I, moved PC on by 2, and changed nothing else. -/
def WroteIndex (s t : State) : Prop :=
  t.pc = s.pc + 2#16 ∧ SameRegs s t ∧ SameStack s t ∧ SameTimers s t ∧ SameScreen s t ∧ SameMem s t ∧ SameRun s t

/-- The instruction stored `n` bytes from `lo` on, moved PC on by 2, and changed nothing else. -/
def Stored (lo n : Nat) (s t : State) : Prop :=
  t.pc = s.pc + 2#16 ∧ SameRegs s t ∧ t.i = s.i ∧ SameStack s t ∧ SameTimers s t ∧ SameScreen s t ∧
    SameMemOutside lo n s t ∧ SameRun s t

/-- The state a fault leaves: the old one, with the status Faulted, the word of the instruction and its address (R34, R211,
R212, R213; the spec's decision D21). That a faulting cycle answers this state as its next one is the model's choice (log
entry 1), and every statement below that says `.next (faultedAt …)` rests on it. -/
def faultedAt (s : State) (kind : FaultKind) (opcode : Option Word) : State :=
  { s with status := .faulted ⟨kind, opcode, s.pc⟩ }

/-- The address as the 12-bit number it is. -/
def jumpSum (nnn : Addr12) (s : State) : Nat := nnn.toNat + (s.reg reg0).toNat

/-- The one fault condition of its own that an instruction may have, and the fault (R215; rules R101, R103, R104, R161,
R163, R164, R165, R181). -/
def ownFault (i : Instr) (s : State) : Option FaultKind :=
  match i with
  | .ret => if s.sp.val = 0 then some .stackUnderflow else none
  | .call _ => if s.sp.val = 24 then some .stackOverflow else none
  | .jpV0 nnn => if jumpSum nnn s > 0xFFF then some (.outOfBounds .jump (jumpSum nnn s)) else none
  | .addI x =>
    if s.i.toNat + (s.reg x).toNat > 0xFFF then some (.outOfBounds .index (s.i.toNat + (s.reg x).toNat)) else none
  | .ldB _ => if s.i.toNat + 2 > 0xFFF then some (.outOfBounds .write (s.i.toNat + 2)) else none
  | .ldMemVx x => if s.i.toNat + x.toNat > 0xFFF then some (.outOfBounds .write (s.i.toNat + x.toNat)) else none
  | .ldVxMem x => if s.i.toNat + x.toNat > 0xFFF then some (.outOfBounds .read (s.i.toNat + x.toNat)) else none
  | .drw _ _ n =>
    if 0 < n.toNat ∧ s.i.toNat + n.toNat - 1 > 0xFFF then some (.outOfBounds .read (s.i.toNat + n.toNat - 1)) else none
  | .cls | .jp _ | .seImm _ _ | .sneImm _ _ | .seReg _ _ | .ldImm _ _ | .addImm _ _ | .ldReg _ _ | .or _ _ | .and _ _
  | .xor _ _ | .addReg _ _ | .sub _ _ | .shr _ _ | .subn _ _ | .shl _ _ | .sneReg _ _ | .ldI _ | .rnd _ _ | .skp _
  | .sknp _ | .ldVxDt _ | .ldVxK _ | .ldDtVx _ | .ldStVx _ | .ldF _ => none

/-- Is the latched key the one with the code V[X]? (R193) -/
def pressed (x : Reg) (s : State) : Prop := ∃ k : Fin 16, s.key = some k ∧ k.val = (s.reg x).toNat

/-- Where PC goes when the instruction does not fault, as an exact sum (R100, R25). -/
def pcIs (i : Instr) (s : State) (p : Nat) : Prop :=
  match i with
  | .ret => p = (s.slot s.sp).toNat
  | .jp nnn => p = nnn.toNat
  | .call nnn => p = nnn.toNat
  | .jpV0 nnn => p = jumpSum nnn s
  | .seImm x nn => p = if s.reg x = nn then s.pc.toNat + 4 else s.pc.toNat + 2
  | .sneImm x nn => p = if s.reg x = nn then s.pc.toNat + 2 else s.pc.toNat + 4
  | .seReg x y => p = if s.reg x = s.reg y then s.pc.toNat + 4 else s.pc.toNat + 2
  | .sneReg x y => p = if s.reg x = s.reg y then s.pc.toNat + 2 else s.pc.toNat + 4
  | .skp x => (pressed x s ∧ p = s.pc.toNat + 4) ∨ (¬ pressed x s ∧ p = s.pc.toNat + 2)
  | .sknp x => (pressed x s ∧ p = s.pc.toNat + 2) ∨ (¬ pressed x s ∧ p = s.pc.toNat + 4)
  | .ldVxK _ => p = if s.key = none then s.pc.toNat else s.pc.toNat + 2
  | .cls | .ldImm _ _ | .addImm _ _ | .ldReg _ _ | .or _ _ | .and _ _ | .xor _ _ | .addReg _ _ | .sub _ _ | .shr _ _
  | .subn _ _ | .shl _ _ | .ldI _ | .rnd _ _ | .drw _ _ _ | .ldVxDt _ | .ldDtVx _ | .ldStVx _ | .addI _ | .ldF _
  | .ldB _ | .ldMemVx _ | .ldVxMem _ => p = s.pc.toNat + 2

/-- The registers an instruction names as its destination (R23). -/
def destReg (i : Instr) (r : Reg) : Prop :=
  match i with
  | .ldImm x _ | .addImm x _ | .ldReg x _ | .or x _ | .and x _ | .xor x _ | .addReg x _ | .sub x _ | .shr x _
  | .subn x _ | .shl x _ | .rnd x _ | .ldVxDt x | .ldVxK x => r = x
  | .ldVxMem x => r.toNat ≤ x.toNat
  | .cls | .ret | .jp _ | .call _ | .seImm _ _ | .sneImm _ _ | .seReg _ _ | .sneReg _ _ | .ldI _ | .jpV0 _ | .drw _ _ _
  | .skp _ | .sknp _ | .ldDtVx _ | .ldStVx _ | .addI _ | .ldF _ | .ldB _ | .ldMemVx _ => False

/-- The six instructions that write VF as a flag (R23). -/
def setsFlag (i : Instr) : Prop :=
  match i with
  | .addReg _ _ | .sub _ _ | .shr _ _ | .subn _ _ | .shl _ _ | .drw _ _ _ => True
  | .cls | .ret | .jp _ | .call _ | .seImm _ _ | .sneImm _ _ | .seReg _ _ | .ldImm _ _ | .addImm _ _ | .ldReg _ _
  | .or _ _ | .and _ _ | .xor _ _ | .sneReg _ _ | .ldI _ | .jpV0 _ | .rnd _ _ | .skp _ | .sknp _ | .ldVxDt _
  | .ldVxK _ | .ldDtVx _ | .ldStVx _ | .addI _ | .ldF _ | .ldB _ | .ldMemVx _ | .ldVxMem _ => False

/-- Does the sprite of `n` rows at I, drawn from (x0, y0), have a set bit on this pixel? Each row and column wraps on its
own, and bit 7 is the leftmost (R182). -/
def covers (s : State) (x0 y0 n : Nat) (p : Pixel) : Prop :=
  ∃ r k, r < n ∧ k < 8 ∧ p.1.val = (x0 + k) % 64 ∧ p.2.val = (y0 + r) % 32 ∧
    (s.mem.read (s.indexed r)).getLsbD (7 - k) = true

end Sys2Proof.Claims

open Sys2Proof Sys2Proof.Machine Sys2Proof.Claims

/-! ## Encoding -/

/-- The words of the source's worked examples and of the spec's tables decode to the instructions they stand for (R75;
95_test_vectors.md E1 to E10, A30, B18, D2e). A sanity statement. -/
def Obligations.SpecWordsDecode : Prop :=
  decode 0x6005#16 = some (.ldImm 0 5) ∧ decode 0x7003#16 = some (.addImm 0 3) ∧
  decode 0xA22A#16 = some (.ldI 0x22A) ∧ decode 0x00E0#16 = some .cls ∧ decode 0x2300#16 = some (.call 0x300) ∧
  decode 0x00EE#16 = some .ret ∧ decode 0x8AB4#16 = some (.addReg 0xA 0xB) ∧ decode 0xD125#16 = some (.drw 1 2 5) ∧
  decode 0xF533#16 = some (.ldB 5) ∧ decode 0xF365#16 = some (.ldVxMem 3) ∧
  decode 0x8128#16 = none ∧ decode 0x5121#16 = none ∧ decode 0x0123#16 = none

/-- R81: encoding an instruction with its fields, then extracting the fields, gives the same fields and the same row:
decode of encode is the identity, for every instruction and every value of its operands. -/
def Obligations.DecodeOfEncodeIsIdentity : Prop := ∀ i : Instr, i.wf = true → decode (encode i) = some i

/-- The other direction (95_test_vectors.md E1, encode(decode(w)) = w for every valid w): no two words decode to one
instruction, so the opcode a fault records is the word that was fetched. -/
def Obligations.EncodeOfDecodeIsTheWord : Prop := ∀ (w : Word) (i : Instr), decode w = some i → encode i = w

/-- R75, R76: a word decodes exactly when it matches a row of the opcode table, to an instruction of that row; and no word
matches two rows. The exact match is the spec's decision D2. -/
def Obligations.DecodeAgreesWithOpcodeTable : Prop :=
  (∀ (w : Word) (i : Instr), decode w = some i → ∃ r ∈ opcodeTable, r.matches w = true ∧ r.mnemonic = i.mnemonic) ∧
  (∀ w : Word, decode w = none → ∀ r ∈ opcodeTable, r.matches w = false) ∧
  (∀ (w : Word), ∀ r ∈ opcodeTable, ∀ r' ∈ opcodeTable, r.matches w = true → r'.matches w = true → r = r')

/-- R75, R76: 43954 of the 65536 words decode (a count the spec derives by enumeration). -/
def Obligations.DecodableWordCount : Prop :=
  ((List.range 65536).countP fun n => (decode (BitVec.ofNat 16 n)).isSome) = 43954

/-! ## The cycle, faults and their finality -/

/-- R70: a cycle of a machine that is not running has no step; then the fetch bounds; then the big-endian word at PC is
decoded; an unknown word faults; a decoded instruction is executed, and the step is exactly its meaning. R70 says only
that there is no step: that this is the stop `Fault.halted`, and that a faulting cycle answers a next state, is the model's
choice (log entry 1). What a fault records (R34, R211) and that it writes nothing else (R213) are in part the spec's
decision D21. -/
def Obligations.CycleFetchesDecodesExecutes : Prop :=
  ∀ s : State,
    (∀ f, s.status = .faulted f → step s = .fault (.halted f)) ∧
    (s.status = .running → 0xFFE < s.pc.toNat →
      step s = .next (faultedAt s (.outOfBounds .fetch s.pc.toNat) none)) ∧
    (s.status = .running → s.pc.toNat ≤ 0xFFE → ∀ w : Word,
      w.toNat = (s.mem.read s.pc.toNat).toNat * 256 + (s.mem.read (s.pc.toNat + 1)).toNat →
        (decode w = none → step s = .next (faultedAt s .unknownOpcode (some w))) ∧
        (∀ i, decode w = some i → step s = exec i s))

/-- R214: in Faulted no operation but status() has a step (the spec's decision D31). That a step of a Faulted machine is
the stop `Fault.halted` is the model's form of it (log entry 1). -/
def Obligations.FaultedMachineHasNoStep : Prop :=
  ∀ (s : State) (f : FaultInfo), s.status = .faulted f →
    step s = .fault (.halted f) ∧ tick s = .fault (.halted f) ∧ (∀ k, setKey k s = .fault (.halted f)) ∧
    readFb s = none ∧ toneOn s = none ∧ statusOf s = .faulted f

/-- R213, R212: a step that faults writes nothing but the status, which records the instruction's own address and, but for
a fetch, the word at it (the spec's decision D21; a fault as a next state: log entry 1). -/
def Obligations.FaultingStepIsAtomic : Prop :=
  ∀ s t : State, step s = .next t → t.status ≠ .running →
    ∃ f : FaultInfo, t = { s with status := .faulted f } ∧ f.pc = s.pc ∧
      (f.opcode = none ∧ f.kind = .outOfBounds .fetch s.pc.toNat ∧ 0xFFE < s.pc.toNat ∨
       f.opcode = some s.fetchWord ∧ s.pc.toNat ≤ 0xFFE)

/-- R211, R215: an instruction faults exactly on its one fault condition, with that kind and recorded info; otherwise it
completes, for every instruction and every state. The conditions of BNNN and FX1E and the atomicity are the spec's
decisions D13 and D21; a fault as a next state is the model's (log entry 1). -/
def Obligations.InstructionFaultsExactlyOnItsCondition : Prop :=
  ∀ (i : Instr) (s : State),
    (∀ k, ownFault i s = some k → exec i s = .next (faultedAt s k (some (encode i)))) ∧
    (ownFault i s = none → ∃ t, exec i s = .next t ∧ t.status = s.status)

/-- R70, R214, R212: a running machine always has a next state, and there is no stop but that of a Faulted machine. That a
faulting cycle answers a next state, which records the fault (R212, the spec's decision D21), and that the one stop is
`Fault.halted`, is the model's choice (log entry 1). -/
def Obligations.RunningMachineAlwaysSteps : Prop :=
  (∀ s : State, s.status = .running → ∃ t, step s = .next t) ∧
  (∀ (s : State) (r : Refusal), step s ≠ .refused r) ∧
  (∀ (s : State) (f : Fault), step s = .fault f → ∃ info, f = .halted info ∧ s.status = .faulted info)

/-! ## Invariants and memory -/

/-- The state after reset meets the invariant. -/
def Obligations.ResetMeetsInvariant : Prop := State.reset.Inv

/-- Every step keeps the invariant: memory stays canonical and inside 0x000..0xFFF (R33), PC never exceeds 0x1002 (R25), I
never exceeds 0xFFF (R26), no stack slot exceeds 0x1000 and S[0] is never written (R27, R103), and a recorded fault has
the shape of R211. The canonical form (log entry 6) and a fault as a next state (log entry 1) are the model's. -/
def Obligations.StepKeepsInvariant : Prop := ∀ s t : State, s.Inv → step s = .next t → t.Inv

/-- The host's operations keep the invariant, and every reset with a ROM establishes it (R226, R240). -/
def Obligations.HostOperationsKeepInvariant : Prop :=
  (∀ s t : State, s.Inv → tick s = .next t → t.Inv) ∧
  (∀ (k : KeyLatch) (s t : State), s.Inv → setKey k s = .next t → t.Inv) ∧
  (∀ (rom : List Byte) (t : State), resetWith rom = .next t → t.Inv)

/-- R56: a read returns the last value written to that address, and a write leaves every other address alone; and a block
of bytes written at ascending addresses (R52) is read back in order. -/
def Obligations.MemoryIsPlainStorage : Prop :=
  (∀ (m : Memory) (a c : Nat) (v : Byte), (m.write a v).read c = if c = a then v else m.read c) ∧
  (∀ (m : Memory) (a : Nat) (bs : List Byte), (m.storeBytes a bs).loadBytes a bs.length = bs)

/-- Equal memories are equal data: two canonical memories that read the same everywhere are the same list. The canonical
form is the model's own (log entry 6). -/
def Obligations.CanonicalMemoriesThatReadAlikeAreEqual : Prop :=
  ∀ m m' : Memory, m.wf = true → m'.wf = true → (∀ a, m.read a = m'.read a) → m = m'

/-! ## Registers and the ALU -/

/-- R130, R132: LD Vx, NN and LD Vx, Vy, with their encodings; no flag, no fault. -/
def Obligations.LoadsWriteTheirRegister : Prop :=
  ∀ (s : State) (x y : Reg) (nn : Byte),
    (encode (.ldImm x nn)).toNat = 0x6000 + 0x100 * x.toNat + nn.toNat ∧
    (encode (.ldReg x y)).toNat = 0x8000 + 0x100 * x.toNat + 0x10 * y.toNat ∧
    (∃ t, exec (.ldImm x nn) s = .next t ∧ t.reg x = nn ∧ WroteReg x s t) ∧
    (∃ t, exec (.ldReg x y) s = .next t ∧ t.reg x = s.reg y ∧ WroteReg x s t)

/-- R131, R133, R134, R135: 7XNN, OR, AND and XOR; the bits of the result, the sum modulo 256. That VF is unchanged (every
register but Vx is) is the spec's decision D10. -/
def Obligations.AddImmediateAndBitwiseResults : Prop :=
  ∀ (s : State) (x y : Reg) (nn : Byte),
    (∃ t, exec (.addImm x nn) s = .next t ∧ (t.reg x).toNat = ((s.reg x).toNat + nn.toNat) % 256 ∧ WroteReg x s t) ∧
    (∃ t, exec (.or x y) s = .next t ∧
      (∀ k, (t.reg x).getLsbD k = ((s.reg x).getLsbD k || (s.reg y).getLsbD k)) ∧ WroteReg x s t) ∧
    (∃ t, exec (.and x y) s = .next t ∧
      (∀ k, (t.reg x).getLsbD k = ((s.reg x).getLsbD k && (s.reg y).getLsbD k)) ∧ WroteReg x s t) ∧
    (∃ t, exec (.xor x y) s = .next t ∧
      (∀ k, (t.reg x).getLsbD k = ((s.reg x).getLsbD k ^^ (s.reg y).getLsbD k)) ∧ WroteReg x s t)

/-- R136: ADD Vx, Vy, with its encoding. With X = F the flag is written last, so VF ends as the carry (the rule's own
pseudocode; the order is also the spec's decision D9). -/
def Obligations.AddRegistersSetsCarry : Prop :=
  ∀ (s : State) (x y : Reg),
    (encode (.addReg x y)).toNat = 0x8004 + 0x100 * x.toNat + 0x10 * y.toNat ∧
    ∃ t, exec (.addReg x y) s = .next t ∧
      (x ≠ regF → (t.reg x).toNat = ((s.reg x).toNat + (s.reg y).toNat) % 256) ∧
      t.reg regF = (if (s.reg x).toNat + (s.reg y).toNat > 255 then 1 else 0) ∧ WroteRegFlag x s t

/-- R137, R139: SUB and SUBN, with their encodings: the difference modulo 256, and VF = 1 when not borrowing. -/
def Obligations.SubtractsSetNotBorrow : Prop :=
  ∀ (s : State) (x y : Reg),
    (encode (.sub x y)).toNat = 0x8005 + 0x100 * x.toNat + 0x10 * y.toNat ∧
    (encode (.subn x y)).toNat = 0x8007 + 0x100 * x.toNat + 0x10 * y.toNat ∧
    (∃ t, exec (.sub x y) s = .next t ∧
      (x ≠ regF → ((t.reg x).toNat : Int) = ((s.reg x).toNat - (s.reg y).toNat : Int) % 256) ∧
      t.reg regF = (if (s.reg x).toNat ≥ (s.reg y).toNat then 1 else 0) ∧ WroteRegFlag x s t) ∧
    (∃ t, exec (.subn x y) s = .next t ∧
      (x ≠ regF → ((t.reg x).toNat : Int) = ((s.reg y).toNat - (s.reg x).toNat : Int) % 256) ∧
      t.reg regF = (if (s.reg y).toNat ≥ (s.reg x).toNat then 1 else 0) ∧ WroteRegFlag x s t)

/-- R138, R140: SHR and SHL, with their encodings: a shift by one of V[X] itself, whatever Y, and VF = the bit shifted out. -/
def Obligations.ShiftsOfVxSetShiftedOutBit : Prop :=
  ∀ (s : State) (x y : Reg),
    (encode (.shr x y)).toNat = 0x8006 + 0x100 * x.toNat + 0x10 * y.toNat ∧
    (encode (.shl x y)).toNat = 0x800E + 0x100 * x.toNat + 0x10 * y.toNat ∧
    (∃ t, exec (.shr x y) s = .next t ∧ (x ≠ regF → (t.reg x).toNat = (s.reg x).toNat / 2) ∧
      (t.reg regF).toNat = (s.reg x).toNat % 2 ∧ WroteRegFlag x s t) ∧
    (∃ t, exec (.shl x y) s = .next t ∧ (x ≠ regF → (t.reg x).toNat = (s.reg x).toNat * 2 % 256) ∧
      (t.reg regF).toNat = (s.reg x).toNat / 128 ∧ WroteRegFlag x s t)

/-- R143, R10: CXNN writes the drawn byte masked with NN and nothing else, whatever byte is drawn (the spec's decision
D18); the meaning takes the next free byte and counts the draw, which is the model's form (log entry 2). -/
def Obligations.RandomByteIsMaskedDraw : Prop :=
  (∀ (s : State) (x : Reg) (nn r : Byte), ∃ t, rndWith r x nn s = .next t ∧ t.reg x = r &&& nn ∧ WroteReg x s t) ∧
  (∀ (s : State) (x : Reg) (nn : Byte), ∃ t, exec (.rnd x nn) s = .next t ∧ t.reg x = Config.drawByte s.draws &&& nn ∧
    t.draws = s.draws + 1 ∧ t.pc = s.pc + 2#16 ∧ SameRegsBut x s t ∧ t.i = s.i ∧ SameStack s t ∧ SameTimers s t ∧
    SameScreen s t ∧ SameMem s t ∧ t.key = s.key ∧ t.status = s.status)

/-- R22, R23: an instruction changes only the registers it names as its destination, and VF if it is one of the six flag
instructions, which leave 0 or 1 in it when they do not fault. That the others leave VF is in part the spec's decisions
D10 and D11. -/
def Obligations.OnlySixInstructionsWriteTheFlag : Prop :=
  ∀ (i : Instr) (s t : State), exec i s = .next t →
    (∀ r, ¬ destReg i r → ¬ (r = regF ∧ setsFlag i) → t.reg r = s.reg r) ∧
    (setsFlag i → t.status = s.status → ownFault i s = none → t.reg regF = 0 ∨ t.reg regF = 1)

/-! ## Control transfer -/

/-- R102: JP, with its encoding: PC becomes NNN, odd or not, and nothing else changes; a jump to its own address leaves the
state as it is, and the target 0xFFF faults at the next fetch (R55, R211, R213; a fault as a next state: log entry 1). -/
def Obligations.JumpSetsPc : Prop :=
  ∀ (s : State) (nnn : Addr12), (encode (.jp nnn)).toNat = 0x1000 + nnn.toNat ∧
    ∃ t, exec (.jp nnn) s = .next t ∧ t.pc.toNat = nnn.toNat ∧ OnlyPc s t ∧ (nnn.toNat = s.pc.toNat → t = s) ∧
      (nnn.toNat = 0xFFF → s.status = .running → step t = .next (faultedAt t (.outOfBounds .fetch 0xFFF) none))

/-- R101, R103, R28: CALL pushes PC + 2 and jumps; RET goes to the popped slot, which keeps its value. The geometry and
the pushed value are the spec's decisions D7 and D8. -/
def Obligations.CallPushesAndReturnPops : Prop :=
  (∀ (s : State) (nnn : Addr12), s.sp.val < 24 → ∃ t, exec (.call nnn) s = .next t ∧
    t.sp.val = s.sp.val + 1 ∧ t.slot t.sp = s.pc + 2#16 ∧ (∀ k, k ≠ t.sp → t.slot k = s.slot k) ∧
    t.pc.toNat = nnn.toNat ∧ SameRegs s t ∧ t.i = s.i ∧ SameTimers s t ∧ SameScreen s t ∧ SameMem s t ∧ SameRun s t) ∧
  (∀ s : State, 0 < s.sp.val → ∃ t, exec .ret s = .next t ∧
    t.sp.val = s.sp.val - 1 ∧ t.pc = s.slot s.sp ∧ (∀ k, t.slot k = s.slot k) ∧
    SameRegs s t ∧ t.i = s.i ∧ SameTimers s t ∧ SameScreen s t ∧ SameMem s t ∧ SameRun s t)

/-- R28, R101, R103: the 25th nested call and a return on an empty stack fault and change nothing else (the spec's
decisions D7, D8, D21; a fault as a next state: log entry 1). -/
def Obligations.StackLimitsFault : Prop :=
  (∀ (s : State) (nnn : Addr12), s.sp.val = 24 →
    exec (.call nnn) s = .next (faultedAt s .stackOverflow (some (encode (.call nnn))))) ∧
  (∀ s : State, s.sp.val = 0 → exec .ret s = .next (faultedAt s .stackUnderflow (some 0x00EE#16)))

/-- 95_test_vectors.md E5, R103, R101: a return from any state that still has the call's stack goes to the instruction
after the call and gives the stack pointer back (decisions D7, D8). -/
def Obligations.ReturnUndoesCall : Prop :=
  ∀ (s t u : State) (nnn : Addr12), s.sp.val < 24 → exec (.call nnn) s = .next t → u.sp = t.sp → u.stack = t.stack →
    ∃ v, exec .ret u = .next v ∧ v.pc = s.pc + 2#16 ∧ v.sp = s.sp

/-- R104: BNNN jumps to NNN + V0, an exact sum, and faults when that is above 0xFFF (the spec's decisions D12 and D13;
a fault as a next state: log entry 1). -/
def Obligations.JumpWithOffset : Prop :=
  ∀ (s : State) (nnn : Addr12),
    (nnn.toNat + (s.reg reg0).toNat ≤ 0xFFF →
      ∃ t, exec (.jpV0 nnn) s = .next t ∧ t.pc.toNat = nnn.toNat + (s.reg reg0).toNat ∧ OnlyPc s t) ∧
    (nnn.toNat + (s.reg reg0).toNat > 0xFFF →
      exec (.jpV0 nnn) s =
        .next (faultedAt s (.outOfBounds .jump (nnn.toNat + (s.reg reg0).toNat)) (some (encode (.jpV0 nnn)))))

/-- R105, R106, R107, R108: the four register skips, with their encodings: PC + 4 when the condition holds, else PC + 2,
and nothing else changes. -/
def Obligations.RegisterSkips : Prop :=
  ∀ (s : State) (x y : Reg) (nn : Byte),
    (encode (.seImm x nn)).toNat = 0x3000 + 0x100 * x.toNat + nn.toNat ∧
    (encode (.sneImm x nn)).toNat = 0x4000 + 0x100 * x.toNat + nn.toNat ∧
    (encode (.seReg x y)).toNat = 0x5000 + 0x100 * x.toNat + 0x10 * y.toNat ∧
    (encode (.sneReg x y)).toNat = 0x9000 + 0x100 * x.toNat + 0x10 * y.toNat ∧
    (∃ t, exec (.seImm x nn) s = .next t ∧
      t.pc = (if s.reg x = nn then s.pc + 4#16 else s.pc + 2#16) ∧ OnlyPc s t) ∧
    (∃ t, exec (.sneImm x nn) s = .next t ∧
      t.pc = (if s.reg x ≠ nn then s.pc + 4#16 else s.pc + 2#16) ∧ OnlyPc s t) ∧
    (∃ t, exec (.seReg x y) s = .next t ∧
      t.pc = (if s.reg x = s.reg y then s.pc + 4#16 else s.pc + 2#16) ∧ OnlyPc s t) ∧
    (∃ t, exec (.sneReg x y) s = .next t ∧
      t.pc = (if s.reg x ≠ s.reg y then s.pc + 4#16 else s.pc + 2#16) ∧ OnlyPc s t)

/-- R100, R25: every instruction that does not fault ends by setting PC in one of the four ways, as an exact sum that does
not wrap; one that faults leaves it. The condition on PC is the one under which an instruction executes (R70). The fault
conditions of BNNN and FX1E are the spec's decision D13; a fault as a next state is the model's (log entry 1). -/
def Obligations.EveryInstructionSetsPc : Prop :=
  ∀ (i : Instr) (s : State), s.pc.toNat ≤ 0xFFE →
    (ownFault i s = none → ∃ t, exec i s = .next t ∧ pcIs i s t.pc.toNat) ∧
    (ownFault i s ≠ none → ∃ t, exec i s = .next t ∧ t.pc = s.pc)

/-- R102, R232, R195: a machine at a jump to its own address, or at a key wait with no key latched, runs safely for ever
and never changes: hangs the model keeps. -/
def Obligations.SelfJumpAndKeyWaitRunForever : Prop :=
  (∀ (s : State) (nnn : Addr12), s.status = .running → s.pc.toNat ≤ 0xFFE → nnn.toNat = s.pc.toNat →
    decode s.fetchWord = some (.jp nnn) → ∀ k, Sys2Proof.core.run k s = .next s ∧ runsSafely k s) ∧
  (∀ (s : State) (x : Reg), s.status = .running → s.pc.toNat ≤ 0xFFE → s.key = none →
    decode s.fetchWord = some (.ldVxK x) → ∀ k, Sys2Proof.core.run k s = .next s ∧ runsSafely k s)

/-! ## The index register and memory -/

/-- R160: LD I, NNN, with its encoding. -/
def Obligations.LoadIndex : Prop :=
  ∀ (s : State) (nnn : Addr12), (encode (.ldI nnn)).toNat = 0xA000 + nnn.toNat ∧
    ∃ t, exec (.ldI nnn) s = .next t ∧ t.i.toNat = nnn.toNat ∧ WroteIndex s t

/-- R161: ADD I, Vx is an exact sum, and faults when that is above 0xFFF (the spec's decisions D11 for VF and D13; a
fault as a next state: log entry 1). -/
def Obligations.AddToIndex : Prop :=
  ∀ (s : State) (x : Reg),
    (s.i.toNat + (s.reg x).toNat ≤ 0xFFF →
      ∃ t, exec (.addI x) s = .next t ∧ t.i.toNat = s.i.toNat + (s.reg x).toNat ∧ WroteIndex s t) ∧
    (s.i.toNat + (s.reg x).toNat > 0xFFF →
      exec (.addI x) s =
        .next (faultedAt s (.outOfBounds .index (s.i.toNat + (s.reg x).toNat)) (some (encode (.addI x)))))

/-- R162: LD F, Vx completes for every Vx; for a digit it is the glyph's address under either reading of FONT_DIGIT_ADDR,
and for Vx > 15 it is one of the two the spec leaves open (decision D6). It holds for every FONT_BASE. -/
def Obligations.FontAddressOfDigit : Prop :=
  ∀ (s : State) (x : Reg), ∃ t, exec (.ldF x) s = .next t ∧ WroteIndex s t ∧
    ((s.reg x).toNat ≤ 15 → t.i.toNat = Config.fontBase.val + 5 * (s.reg x).toNat) ∧
    t.i.toNat = Config.fontBase.val + 5 * (match Config.fontDigitAddr with
      | .unmasked => (s.reg x).toNat
      | .masked => (s.reg x).toNat % 16) ∧
    t.i.toNat ≤ 0x6AB

/-- R163: LD B, Vx, with its encoding: three decimal digits at I, I + 1 and I + 2, and the fault before any write (what it
records: R211, R213; a fault as a next state: log entry 1). -/
def Obligations.DecimalStore : Prop :=
  ∀ (s : State) (x : Reg), (encode (.ldB x)).toNat = 0xF033 + 0x100 * x.toNat ∧
    (s.i.toNat + 2 ≤ 0xFFF → ∃ t, exec (.ldB x) s = .next t ∧
      (t.mem.read (s.indexed 0)).toNat = (s.reg x).toNat / 100 ∧
      (t.mem.read (s.indexed 1)).toNat = (s.reg x).toNat / 10 % 10 ∧
      (t.mem.read (s.indexed 2)).toNat = (s.reg x).toNat % 10 ∧ Stored (s.indexed 0) 3 s t) ∧
    (s.i.toNat + 2 > 0xFFF →
      exec (.ldB x) s = .next (faultedAt s (.outOfBounds .write (s.i.toNat + 2)) (some (encode (.ldB x)))))

/-- R164: LD [I], Vx stores V0..VX from I on, and faults before any write (the spec's decision D13; a fault as a next
state: log entry 1). -/
def Obligations.BlockStore : Prop :=
  ∀ (s : State) (x : Reg),
    (s.i.toNat + x.toNat ≤ 0xFFF → ∃ t, exec (.ldMemVx x) s = .next t ∧
      (∀ r : Reg, r.toNat ≤ x.toNat → t.mem.read (s.indexed r.toNat) = s.reg r) ∧
      Stored (s.indexed 0) (x.toNat + 1) s t) ∧
    (s.i.toNat + x.toNat > 0xFFF →
      exec (.ldMemVx x) s =
        .next (faultedAt s (.outOfBounds .write (s.i.toNat + x.toNat)) (some (encode (.ldMemVx x)))))

/-- R165: LD Vx, [I], with its encoding: V0..VX from I on, the registers above X unchanged, and the fault before any
register write (what it records: R211, R213; a fault as a next state: log entry 1). -/
def Obligations.BlockLoad : Prop :=
  ∀ (s : State) (x : Reg), (encode (.ldVxMem x)).toNat = 0xF065 + 0x100 * x.toNat ∧
    (s.i.toNat + x.toNat ≤ 0xFFF → ∃ t, exec (.ldVxMem x) s = .next t ∧
      (∀ r : Reg, r.toNat ≤ x.toNat → t.reg r = s.mem.read (s.indexed r.toNat)) ∧
      (∀ r : Reg, x.toNat < r.toNat → t.reg r = s.reg r) ∧ t.pc = s.pc + 2#16 ∧ SameBeyondRegs s t) ∧
    (s.i.toNat + x.toNat > 0xFFF →
      exec (.ldVxMem x) s =
        .next (faultedAt s (.outOfBounds .read (s.i.toNat + x.toNat)) (some (encode (.ldVxMem x)))))

/-- 95_test_vectors.md E10, R164, R165: a block store, then, whatever happened to the registers meanwhile, a block load
from the same address, gives the original values back and leaves I. -/
def Obligations.BlockLoadUndoesBlockStore : Prop :=
  ∀ (s t u : State) (x : Reg), s.i.toNat + x.toNat ≤ 0xFFF → exec (.ldMemVx x) s = .next t →
    u.mem = t.mem → u.i = t.i →
      ∃ v, exec (.ldVxMem x) u = .next v ∧ (∀ r : Reg, r.toNat ≤ x.toNat → v.reg r = s.reg r) ∧ v.i = s.i

/-- R63, R247: a block store over the next instruction's bytes is seen by the very next fetch. -/
def Obligations.StoreIsSeenByNextFetch : Prop :=
  ∀ (s : State) (x : Reg), 1 ≤ x.toNat → s.i.toNat = s.pc.toNat + 2 → s.i.toNat + x.toNat ≤ 0xFFF →
    ∃ t, exec (.ldMemVx x) s = .next t ∧ t.pc.toNat = s.pc.toNat + 2 ∧
      t.fetchWord.toNat = (s.reg 0#4).toNat * 256 + (s.reg 1#4).toNat

/-! ## The framebuffer -/

/-- R180: CLS, with its encoding: every pixel unset, VF and everything else unchanged. -/
def Obligations.ClearScreen : Prop :=
  encode .cls = 0x00E0#16 ∧
  ∀ s : State, ∃ t, exec .cls s = .next t ∧ (∀ p, t.fb.get p = false) ∧ t.pc = s.pc + 2#16 ∧ SameRegs s t ∧ t.i = s.i ∧
    SameStack s t ∧ SameTimers s t ∧ SameMem s t ∧ SameRun s t

/-- R181, R182: DRW flips exactly the pixels under a set bit of the sprite, each wrapped on its own, and sets VF to 1 when
some pixel goes from set to unset, else 0. The loops of R181 and this description agree because no two bits of a sprite
fall on one pixel. N = 0, the reading of the old VF and the check of all rows first are the spec's decisions D28, D9 and
D29; the screen size is D3. -/
def Obligations.DrawFlipsCoveredPixelsAndDetectsCollision : Prop :=
  ∀ (s : State) (x y : Reg) (n : BitVec 4), (n.toNat = 0 ∨ s.i.toNat + n.toNat - 1 ≤ 0xFFF) →
    ∃ t, exec (.drw x y n) s = .next t ∧
      (∀ p, covers s (s.reg x).toNat (s.reg y).toNat n.toNat p → t.fb.get p = !s.fb.get p) ∧
      (∀ p, ¬ covers s (s.reg x).toNat (s.reg y).toNat n.toNat p → t.fb.get p = s.fb.get p) ∧
      ((∃ p, s.fb.get p = true ∧ t.fb.get p = false) → t.reg regF = 1) ∧
      ((∀ p, s.fb.get p = true → t.fb.get p = true) → t.reg regF = 0) ∧
      t.pc = s.pc + 2#16 ∧ SameRegsBut regF s t ∧ t.i = s.i ∧ SameStack s t ∧ SameTimers s t ∧ SameMem s t ∧ SameRun s t

/-- R181: a sprite row above 0xFFF faults before any pixel changes, with the highest row's address (the spec's decision
D29; 90_conflicts.md C10; a fault as a next state: log entry 1). -/
def Obligations.DrawOutOfBoundsFaults : Prop :=
  ∀ (s : State) (x y : Reg) (n : BitVec 4), 0 < n.toNat → s.i.toNat + n.toNat - 1 > 0xFFF →
    exec (.drw x y n) s =
      .next (faultedAt s (.outOfBounds .read (s.i.toNat + n.toNat - 1)) (some (encode (.drw x y n))))

/-- 95_test_vectors.md E8, R181: drawing the same sprite twice at the same place gives the screen back, and the second draw
collides exactly when the first one left a pixel set that it draws over. -/
def Obligations.DrawingTwiceRestoresScreen : Prop :=
  ∀ (s t : State) (x y : Reg) (n : BitVec 4), x ≠ regF → y ≠ regF → (n.toNat = 0 ∨ s.i.toNat + n.toNat - 1 ≤ 0xFFF) →
    exec (.drw x y n) s = .next t →
      ∃ u, exec (.drw x y n) t = .next u ∧ (∀ p, u.fb.get p = s.fb.get p) ∧
        (u.reg regF = 1 ↔ ∃ p, s.fb.get p = false ∧ t.fb.get p = true)

/-! ## Timers and keys -/

/-- R190, R191, R192: the three timer instructions, with their encodings. -/
def Obligations.TimerInstructions : Prop :=
  ∀ (s : State) (x : Reg),
    (encode (.ldVxDt x)).toNat = 0xF007 + 0x100 * x.toNat ∧ (encode (.ldDtVx x)).toNat = 0xF015 + 0x100 * x.toNat ∧
    (encode (.ldStVx x)).toNat = 0xF018 + 0x100 * x.toNat ∧
    (∃ t, exec (.ldVxDt x) s = .next t ∧ t.reg x = s.dt ∧ WroteReg x s t) ∧
    (∃ t, exec (.ldDtVx x) s = .next t ∧ t.dt = s.reg x ∧ t.st = s.st ∧ t.pc = s.pc + 2#16 ∧ SameRegs s t ∧ t.i = s.i ∧
      SameStack s t ∧ SameScreen s t ∧ SameMem s t ∧ SameRun s t) ∧
    (∃ t, exec (.ldStVx x) s = .next t ∧ t.st = s.reg x ∧ t.dt = s.dt ∧ t.pc = s.pc + 2#16 ∧ SameRegs s t ∧ t.i = s.i ∧
      SameStack s t ∧ SameScreen s t ∧ SameMem s t ∧ SameRun s t)

/-- R193, R194: the key skips compare the latched key with the whole byte V[X], and SKNP skips exactly when SKP does not;
a byte above 15 never matches (the spec's decision D16). -/
def Obligations.KeySkips : Prop :=
  ∀ (s : State) (x : Reg),
    (pressed x s → (∃ t, exec (.skp x) s = .next t ∧ t.pc = s.pc + 4#16 ∧ OnlyPc s t) ∧
      (∃ t, exec (.sknp x) s = .next t ∧ t.pc = s.pc + 2#16 ∧ OnlyPc s t)) ∧
    (¬ pressed x s → (∃ t, exec (.skp x) s = .next t ∧ t.pc = s.pc + 2#16 ∧ OnlyPc s t) ∧
      (∃ t, exec (.sknp x) s = .next t ∧ t.pc = s.pc + 4#16 ∧ OnlyPc s t)) ∧
    ((s.reg x).toNat > 15 → ¬ pressed x s)

/-- R195: FX0A with no key latched changes nothing at all, PC included; with one latched it takes its code and moves on,
and does not clear it (the spec's decisions D16 and D17). -/
def Obligations.KeyWait : Prop :=
  (∀ (s : State) (x : Reg), s.key = none → exec (.ldVxK x) s = .next s) ∧
  (∀ (s : State) (x : Reg) (k : Fin 16), s.key = some k →
    ∃ t, exec (.ldVxK x) s = .next t ∧ (t.reg x).toNat = k.val ∧ t.key = some k ∧ WroteReg x s t)

/-! ## Whole-machine rules and the host's operations -/

/-- R26, R27, R29, R30, R31, R32, R51: which instructions may change each piece of state; none changes the key latch (the
spec's decision D16), and only CXNN draws. -/
def Obligations.OnlyNamedInstructionsWriteEachState : Prop :=
  ∀ (i : Instr) (s t : State), exec i s = .next t →
    t.key = s.key ∧
    ((∀ x, i ≠ .ldDtVx x) → t.dt = s.dt) ∧
    ((∀ x, i ≠ .ldStVx x) → t.st = s.st) ∧
    (i ≠ .ret → (∀ n, i ≠ .call n) → t.sp = s.sp ∧ t.stack = s.stack) ∧
    (i ≠ .cls → (∀ x y n, i ≠ .drw x y n) → t.fb = s.fb) ∧
    ((∀ x, i ≠ .ldB x) → (∀ x, i ≠ .ldMemVx x) → t.mem = s.mem) ∧
    ((∀ n, i ≠ .ldI n) → (∀ x, i ≠ .addI x) → (∀ x, i ≠ .ldF x) → t.i = s.i) ∧
    ((∀ x nn, i ≠ .rnd x nn) → t.draws = s.draws)

/-- 90_conflicts.md C7, R10: execution is deterministic given the draws: but for CXNN, what an instruction does is the same
whatever the count of draws. The count is the model's own field (log entry 2), and this holds for every value of it. -/
def Obligations.DrawCountAffectsOnlyRandom : Prop :=
  ∀ (i : Instr) (s t : State) (n : Nat), (∀ x nn, i ≠ .rnd x nn) → exec i s = .next t →
    exec i { s with draws := n } = .next { t with draws := n }

/-- R221: tick() decrements each timer by one, saturating at zero, and writes nothing else. -/
def Obligations.TickDecaysTimers : Prop :=
  ∀ s : State, s.status = .running → ∃ t, tick s = .next t ∧
    t.dt.toNat = s.dt.toNat - 1 ∧ t.st.toNat = s.st.toNat - 1 ∧
    t.pc = s.pc ∧ SameRegs s t ∧ t.i = s.i ∧ SameStack s t ∧ SameScreen s t ∧ SameMem s t ∧ SameRun s t

/-- R224, R225, R223: set_key(k) writes KEY and nothing else; the views read the framebuffer, and ST != 0 (the spec's
decision D19). -/
def Obligations.SetKeyAndViews : Prop :=
  (∀ (s : State) (k : KeyLatch), s.status = .running → setKey k s = .next { s with key := k }) ∧
  (∀ s : State, s.status = .running → readFb s = some s.fb) ∧
  (∀ s : State, s.status = .running → (toneOn s = some true ↔ s.st.toNat ≠ 0))

/-- R240: every register, the timers and the stack pointer are zero after reset, the machine runs from 0x200, and nothing
else is set. I, the slots, the framebuffer, the key latch and PC are the spec's decision D22 (log entry 5); that the count
of draws starts at some value is the model's and is not stated. -/
def Obligations.ResetState : Prop :=
  (∀ r, State.reset.reg r = 0) ∧ State.reset.dt = 0 ∧ State.reset.st = 0 ∧ State.reset.sp = 0 ∧
  State.reset.i = 0 ∧ State.reset.pc = 0x200#16 ∧ (∀ k, State.reset.slot k = 0) ∧ State.reset.key = none ∧
  (∀ p, State.reset.fb.get p = false) ∧ State.reset.status = .running

/-- R240, R241, R242: after reset with a ROM that fits (that every ROM of 0 to 3584 bytes loads is the spec's decision D23,
log entry 21), the ROM lies unmodified at 0x200, the font table at FONT_BASE, and every other
byte is zero; every register is as after a reset without one. It holds for every font base and table. -/
def Obligations.ResetLoadsFontAndRom : Prop :=
  ∀ rom : List Byte, rom.length ≤ 3584 → ∃ t, resetWith rom = .next t ∧ t = { State.reset with mem := t.mem } ∧
    (∀ a, 0x200 ≤ a → t.mem.read a = rom.getD (a - 0x200) 0) ∧
    (∀ k, (h : k < 80) → t.mem.read (Config.fontBase.val + k) = Config.fontTable[k]) ∧
    (∀ a, a < 0x200 → (a < Config.fontBase.val ∨ Config.fontBase.val + 80 ≤ a) → t.mem.read a = 0)

/-- R242: a ROM above 3584 bytes keeps the reset from completing (the spec's decision D23; I16: refuse; as the
refusal `romTooLarge`: log entry 21). -/
def Obligations.OversizedRomIsRefused : Prop :=
  ∀ rom : List Byte, rom.length > 3584 → resetWith rom = .refused (.romTooLarge rom.length)

/-- R248: within a batch of cycles the key latch never changes, however many cycles it has (no instruction clears it: the
spec's decision D16; batches beside `step`: log entry 10). -/
def Obligations.KeyIsConstantInABatch : Prop := ∀ (k : Nat) (s t : State), runCycles k s = .next t → t.key = s.key

/-- R229, R222: a frame is its whole batch of cycles, then the key sample, then the ticks, so that the timers decay by the
number of ticks, saturating, and only the key and the timers differ from the end of the batch. It holds for every budget
and every number of ticks (the spec's decision D20; the schedule beside `step`: log entry 10). -/
def Obligations.FrameIsBatchThenBoundary : Prop :=
  ∀ (budget : Nat) (b : Boundary) (s u : State), runCycles budget s = .next u → u.status = .running →
    ∃ t, runFrame budget b s = .next t ∧ t = { u with key := b.key, dt := t.dt, st := t.st } ∧
      t.dt.toNat = u.dt.toNat - b.ticks ∧ t.st.toNat = u.st.toNat - b.ticks
end

