-- ==== Sys2Proof/Laws/State.lean ====
section
/-! SUPPORT. One lemma per field per update of the state, each true by unfolding the update once, so that no later proof
unfolds a record update; and reading a register after each update. -/

namespace Sys2Proof.Machine

variable (s : State)

/-! ### setReg -/

@[simp] theorem setReg_pc (x : Reg) (b : Byte) : (s.setReg x b).pc = s.pc := rfl
@[simp] theorem setReg_i (x : Reg) (b : Byte) : (s.setReg x b).i = s.i := rfl
@[simp] theorem setReg_sp (x : Reg) (b : Byte) : (s.setReg x b).sp = s.sp := rfl
@[simp] theorem setReg_stack (x : Reg) (b : Byte) : (s.setReg x b).stack = s.stack := rfl
@[simp] theorem setReg_dt (x : Reg) (b : Byte) : (s.setReg x b).dt = s.dt := rfl
@[simp] theorem setReg_st (x : Reg) (b : Byte) : (s.setReg x b).st = s.st := rfl
@[simp] theorem setReg_key (x : Reg) (b : Byte) : (s.setReg x b).key = s.key := rfl
@[simp] theorem setReg_fb (x : Reg) (b : Byte) : (s.setReg x b).fb = s.fb := rfl
@[simp] theorem setReg_mem (x : Reg) (b : Byte) : (s.setReg x b).mem = s.mem := rfl
@[simp] theorem setReg_status (x : Reg) (b : Byte) : (s.setReg x b).status = s.status := rfl
@[simp] theorem setReg_draws (x : Reg) (b : Byte) : (s.setReg x b).draws = s.draws := rfl

/-! ### setResultAndFlag -/

@[simp] theorem setResultAndFlag_pc (x : Reg) (b : Byte) (f : Bool) : (s.setResultAndFlag x b f).pc = s.pc := rfl
@[simp] theorem setResultAndFlag_i (x : Reg) (b : Byte) (f : Bool) : (s.setResultAndFlag x b f).i = s.i := rfl
@[simp] theorem setResultAndFlag_sp (x : Reg) (b : Byte) (f : Bool) : (s.setResultAndFlag x b f).sp = s.sp := rfl
@[simp] theorem setResultAndFlag_stack (x : Reg) (b : Byte) (f : Bool) : (s.setResultAndFlag x b f).stack = s.stack := rfl
@[simp] theorem setResultAndFlag_dt (x : Reg) (b : Byte) (f : Bool) : (s.setResultAndFlag x b f).dt = s.dt := rfl
@[simp] theorem setResultAndFlag_st (x : Reg) (b : Byte) (f : Bool) : (s.setResultAndFlag x b f).st = s.st := rfl
@[simp] theorem setResultAndFlag_key (x : Reg) (b : Byte) (f : Bool) : (s.setResultAndFlag x b f).key = s.key := rfl
@[simp] theorem setResultAndFlag_fb (x : Reg) (b : Byte) (f : Bool) : (s.setResultAndFlag x b f).fb = s.fb := rfl
@[simp] theorem setResultAndFlag_mem (x : Reg) (b : Byte) (f : Bool) : (s.setResultAndFlag x b f).mem = s.mem := rfl
@[simp] theorem setResultAndFlag_status (x : Reg) (b : Byte) (f : Bool) : (s.setResultAndFlag x b f).status = s.status := rfl
@[simp] theorem setResultAndFlag_draws (x : Reg) (b : Byte) (f : Bool) : (s.setResultAndFlag x b f).draws = s.draws := rfl

/-! ### jumpTo -/

@[simp] theorem jumpTo_v (p : Word) : (s.jumpTo p).v = s.v := rfl
@[simp] theorem jumpTo_pc (p : Word) : (s.jumpTo p).pc = p := rfl
@[simp] theorem jumpTo_i (p : Word) : (s.jumpTo p).i = s.i := rfl
@[simp] theorem jumpTo_sp (p : Word) : (s.jumpTo p).sp = s.sp := rfl
@[simp] theorem jumpTo_stack (p : Word) : (s.jumpTo p).stack = s.stack := rfl
@[simp] theorem jumpTo_dt (p : Word) : (s.jumpTo p).dt = s.dt := rfl
@[simp] theorem jumpTo_st (p : Word) : (s.jumpTo p).st = s.st := rfl
@[simp] theorem jumpTo_key (p : Word) : (s.jumpTo p).key = s.key := rfl
@[simp] theorem jumpTo_fb (p : Word) : (s.jumpTo p).fb = s.fb := rfl
@[simp] theorem jumpTo_mem (p : Word) : (s.jumpTo p).mem = s.mem := rfl
@[simp] theorem jumpTo_status (p : Word) : (s.jumpTo p).status = s.status := rfl
@[simp] theorem jumpTo_draws (p : Word) : (s.jumpTo p).draws = s.draws := rfl

/-! ### advance -/

@[simp] theorem advance_v : s.advance.v = s.v := rfl
@[simp] theorem advance_pc : s.advance.pc = s.pc + 2#16 := rfl
@[simp] theorem advance_i : s.advance.i = s.i := rfl
@[simp] theorem advance_sp : s.advance.sp = s.sp := rfl
@[simp] theorem advance_stack : s.advance.stack = s.stack := rfl
@[simp] theorem advance_dt : s.advance.dt = s.dt := rfl
@[simp] theorem advance_st : s.advance.st = s.st := rfl
@[simp] theorem advance_key : s.advance.key = s.key := rfl
@[simp] theorem advance_fb : s.advance.fb = s.fb := rfl
@[simp] theorem advance_mem : s.advance.mem = s.mem := rfl
@[simp] theorem advance_status : s.advance.status = s.status := rfl
@[simp] theorem advance_draws : s.advance.draws = s.draws := rfl

/-! ### skip -/

@[simp] theorem skip_v : s.skip.v = s.v := rfl
@[simp] theorem skip_pc : s.skip.pc = s.pc + 4#16 := rfl
@[simp] theorem skip_i : s.skip.i = s.i := rfl
@[simp] theorem skip_sp : s.skip.sp = s.sp := rfl
@[simp] theorem skip_stack : s.skip.stack = s.stack := rfl
@[simp] theorem skip_dt : s.skip.dt = s.dt := rfl
@[simp] theorem skip_st : s.skip.st = s.st := rfl
@[simp] theorem skip_key : s.skip.key = s.key := rfl
@[simp] theorem skip_fb : s.skip.fb = s.fb := rfl
@[simp] theorem skip_mem : s.skip.mem = s.mem := rfl
@[simp] theorem skip_status : s.skip.status = s.status := rfl
@[simp] theorem skip_draws : s.skip.draws = s.draws := rfl

/-! ### setIndex -/

@[simp] theorem setIndex_v (p : Word) : (s.setIndex p).v = s.v := rfl
@[simp] theorem setIndex_pc (p : Word) : (s.setIndex p).pc = s.pc := rfl
@[simp] theorem setIndex_i (p : Word) : (s.setIndex p).i = p := rfl
@[simp] theorem setIndex_sp (p : Word) : (s.setIndex p).sp = s.sp := rfl
@[simp] theorem setIndex_stack (p : Word) : (s.setIndex p).stack = s.stack := rfl
@[simp] theorem setIndex_dt (p : Word) : (s.setIndex p).dt = s.dt := rfl
@[simp] theorem setIndex_st (p : Word) : (s.setIndex p).st = s.st := rfl
@[simp] theorem setIndex_key (p : Word) : (s.setIndex p).key = s.key := rfl
@[simp] theorem setIndex_fb (p : Word) : (s.setIndex p).fb = s.fb := rfl
@[simp] theorem setIndex_mem (p : Word) : (s.setIndex p).mem = s.mem := rfl
@[simp] theorem setIndex_status (p : Word) : (s.setIndex p).status = s.status := rfl
@[simp] theorem setIndex_draws (p : Word) : (s.setIndex p).draws = s.draws := rfl

/-! ### push -/

@[simp] theorem push_v (p : Word) : (s.push p).v = s.v := rfl
@[simp] theorem push_pc (p : Word) : (s.push p).pc = s.pc := rfl
@[simp] theorem push_i (p : Word) : (s.push p).i = s.i := rfl
@[simp] theorem push_sp (p : Word) : (s.push p).sp = s.sp + 1 := rfl
@[simp] theorem push_dt (p : Word) : (s.push p).dt = s.dt := rfl
@[simp] theorem push_st (p : Word) : (s.push p).st = s.st := rfl
@[simp] theorem push_key (p : Word) : (s.push p).key = s.key := rfl
@[simp] theorem push_fb (p : Word) : (s.push p).fb = s.fb := rfl
@[simp] theorem push_mem (p : Word) : (s.push p).mem = s.mem := rfl
@[simp] theorem push_status (p : Word) : (s.push p).status = s.status := rfl
@[simp] theorem push_draws (p : Word) : (s.push p).draws = s.draws := rfl

/-! ### pop -/

@[simp] theorem pop_v : s.pop.v = s.v := rfl
@[simp] theorem pop_pc : s.pop.pc = s.pc := rfl
@[simp] theorem pop_i : s.pop.i = s.i := rfl
@[simp] theorem pop_sp : s.pop.sp = s.sp - 1 := rfl
@[simp] theorem pop_stack : s.pop.stack = s.stack := rfl
@[simp] theorem pop_dt : s.pop.dt = s.dt := rfl
@[simp] theorem pop_st : s.pop.st = s.st := rfl
@[simp] theorem pop_key : s.pop.key = s.key := rfl
@[simp] theorem pop_fb : s.pop.fb = s.fb := rfl
@[simp] theorem pop_mem : s.pop.mem = s.mem := rfl
@[simp] theorem pop_status : s.pop.status = s.status := rfl
@[simp] theorem pop_draws : s.pop.draws = s.draws := rfl

/-! ### countDraw -/

@[simp] theorem countDraw_v : s.countDraw.v = s.v := rfl
@[simp] theorem countDraw_pc : s.countDraw.pc = s.pc := rfl
@[simp] theorem countDraw_i : s.countDraw.i = s.i := rfl
@[simp] theorem countDraw_sp : s.countDraw.sp = s.sp := rfl
@[simp] theorem countDraw_stack : s.countDraw.stack = s.stack := rfl
@[simp] theorem countDraw_dt : s.countDraw.dt = s.dt := rfl
@[simp] theorem countDraw_st : s.countDraw.st = s.st := rfl
@[simp] theorem countDraw_key : s.countDraw.key = s.key := rfl
@[simp] theorem countDraw_fb : s.countDraw.fb = s.fb := rfl
@[simp] theorem countDraw_mem : s.countDraw.mem = s.mem := rfl
@[simp] theorem countDraw_status : s.countDraw.status = s.status := rfl
@[simp] theorem countDraw_draws : s.countDraw.draws = s.draws + 1 := rfl

/-! ### storeAtIndex -/

@[simp] theorem storeAtIndex_v (bs : List Byte) : (s.storeAtIndex bs).v = s.v := rfl
@[simp] theorem storeAtIndex_pc (bs : List Byte) : (s.storeAtIndex bs).pc = s.pc := rfl
@[simp] theorem storeAtIndex_i (bs : List Byte) : (s.storeAtIndex bs).i = s.i := rfl
@[simp] theorem storeAtIndex_sp (bs : List Byte) : (s.storeAtIndex bs).sp = s.sp := rfl
@[simp] theorem storeAtIndex_stack (bs : List Byte) : (s.storeAtIndex bs).stack = s.stack := rfl
@[simp] theorem storeAtIndex_dt (bs : List Byte) : (s.storeAtIndex bs).dt = s.dt := rfl
@[simp] theorem storeAtIndex_st (bs : List Byte) : (s.storeAtIndex bs).st = s.st := rfl
@[simp] theorem storeAtIndex_key (bs : List Byte) : (s.storeAtIndex bs).key = s.key := rfl
@[simp] theorem storeAtIndex_fb (bs : List Byte) : (s.storeAtIndex bs).fb = s.fb := rfl
@[simp] theorem storeAtIndex_mem (bs : List Byte) :
    (s.storeAtIndex bs).mem = s.mem.storeBytes (s.indexed 0) bs := rfl
@[simp] theorem storeAtIndex_status (bs : List Byte) : (s.storeAtIndex bs).status = s.status := rfl
@[simp] theorem storeAtIndex_draws (bs : List Byte) : (s.storeAtIndex bs).draws = s.draws := rfl

/-! ### loadRegs -/

@[simp] theorem loadRegs_pc (x : Reg) : (s.loadRegs x).pc = s.pc := rfl
@[simp] theorem loadRegs_i (x : Reg) : (s.loadRegs x).i = s.i := rfl
@[simp] theorem loadRegs_sp (x : Reg) : (s.loadRegs x).sp = s.sp := rfl
@[simp] theorem loadRegs_stack (x : Reg) : (s.loadRegs x).stack = s.stack := rfl
@[simp] theorem loadRegs_dt (x : Reg) : (s.loadRegs x).dt = s.dt := rfl
@[simp] theorem loadRegs_st (x : Reg) : (s.loadRegs x).st = s.st := rfl
@[simp] theorem loadRegs_key (x : Reg) : (s.loadRegs x).key = s.key := rfl
@[simp] theorem loadRegs_fb (x : Reg) : (s.loadRegs x).fb = s.fb := rfl
@[simp] theorem loadRegs_mem (x : Reg) : (s.loadRegs x).mem = s.mem := rfl
@[simp] theorem loadRegs_status (x : Reg) : (s.loadRegs x).status = s.status := rfl
@[simp] theorem loadRegs_draws (x : Reg) : (s.loadRegs x).draws = s.draws := rfl

/-! ### drawSprite -/

@[simp] theorem drawSprite_pc (a b : Nat) (rows : List Byte) : (s.drawSprite a b rows).pc = s.pc := rfl
@[simp] theorem drawSprite_i (a b : Nat) (rows : List Byte) : (s.drawSprite a b rows).i = s.i := rfl
@[simp] theorem drawSprite_sp (a b : Nat) (rows : List Byte) : (s.drawSprite a b rows).sp = s.sp := rfl
@[simp] theorem drawSprite_stack (a b : Nat) (rows : List Byte) : (s.drawSprite a b rows).stack = s.stack := rfl
@[simp] theorem drawSprite_dt (a b : Nat) (rows : List Byte) : (s.drawSprite a b rows).dt = s.dt := rfl
@[simp] theorem drawSprite_st (a b : Nat) (rows : List Byte) : (s.drawSprite a b rows).st = s.st := rfl
@[simp] theorem drawSprite_key (a b : Nat) (rows : List Byte) : (s.drawSprite a b rows).key = s.key := rfl
@[simp] theorem drawSprite_mem (a b : Nat) (rows : List Byte) : (s.drawSprite a b rows).mem = s.mem := rfl
@[simp] theorem drawSprite_status (a b : Nat) (rows : List Byte) : (s.drawSprite a b rows).status = s.status := rfl
@[simp] theorem drawSprite_draws (a b : Nat) (rows : List Byte) : (s.drawSprite a b rows).draws = s.draws := rfl

/-! ### setDelay -/

@[simp] theorem setDelay_v (b : Byte) : (s.setDelay b).v = s.v := rfl
@[simp] theorem setDelay_pc (b : Byte) : (s.setDelay b).pc = s.pc := rfl
@[simp] theorem setDelay_i (b : Byte) : (s.setDelay b).i = s.i := rfl
@[simp] theorem setDelay_sp (b : Byte) : (s.setDelay b).sp = s.sp := rfl
@[simp] theorem setDelay_stack (b : Byte) : (s.setDelay b).stack = s.stack := rfl
@[simp] theorem setDelay_dt (b : Byte) : (s.setDelay b).dt = b := rfl
@[simp] theorem setDelay_st (b : Byte) : (s.setDelay b).st = s.st := rfl
@[simp] theorem setDelay_key (b : Byte) : (s.setDelay b).key = s.key := rfl
@[simp] theorem setDelay_fb (b : Byte) : (s.setDelay b).fb = s.fb := rfl
@[simp] theorem setDelay_mem (b : Byte) : (s.setDelay b).mem = s.mem := rfl
@[simp] theorem setDelay_status (b : Byte) : (s.setDelay b).status = s.status := rfl
@[simp] theorem setDelay_draws (b : Byte) : (s.setDelay b).draws = s.draws := rfl

/-! ### setSound -/

@[simp] theorem setSound_v (b : Byte) : (s.setSound b).v = s.v := rfl
@[simp] theorem setSound_pc (b : Byte) : (s.setSound b).pc = s.pc := rfl
@[simp] theorem setSound_i (b : Byte) : (s.setSound b).i = s.i := rfl
@[simp] theorem setSound_sp (b : Byte) : (s.setSound b).sp = s.sp := rfl
@[simp] theorem setSound_stack (b : Byte) : (s.setSound b).stack = s.stack := rfl
@[simp] theorem setSound_dt (b : Byte) : (s.setSound b).dt = s.dt := rfl
@[simp] theorem setSound_st (b : Byte) : (s.setSound b).st = b := rfl
@[simp] theorem setSound_key (b : Byte) : (s.setSound b).key = s.key := rfl
@[simp] theorem setSound_fb (b : Byte) : (s.setSound b).fb = s.fb := rfl
@[simp] theorem setSound_mem (b : Byte) : (s.setSound b).mem = s.mem := rfl
@[simp] theorem setSound_status (b : Byte) : (s.setSound b).status = s.status := rfl
@[simp] theorem setSound_draws (b : Byte) : (s.setSound b).draws = s.draws := rfl

/-! ### setLatch -/

@[simp] theorem setLatch_v (k : KeyLatch) : (s.setLatch k).v = s.v := rfl
@[simp] theorem setLatch_pc (k : KeyLatch) : (s.setLatch k).pc = s.pc := rfl
@[simp] theorem setLatch_i (k : KeyLatch) : (s.setLatch k).i = s.i := rfl
@[simp] theorem setLatch_sp (k : KeyLatch) : (s.setLatch k).sp = s.sp := rfl
@[simp] theorem setLatch_stack (k : KeyLatch) : (s.setLatch k).stack = s.stack := rfl
@[simp] theorem setLatch_dt (k : KeyLatch) : (s.setLatch k).dt = s.dt := rfl
@[simp] theorem setLatch_st (k : KeyLatch) : (s.setLatch k).st = s.st := rfl
@[simp] theorem setLatch_key (k : KeyLatch) : (s.setLatch k).key = k := rfl
@[simp] theorem setLatch_fb (k : KeyLatch) : (s.setLatch k).fb = s.fb := rfl
@[simp] theorem setLatch_mem (k : KeyLatch) : (s.setLatch k).mem = s.mem := rfl
@[simp] theorem setLatch_status (k : KeyLatch) : (s.setLatch k).status = s.status := rfl
@[simp] theorem setLatch_draws (k : KeyLatch) : (s.setLatch k).draws = s.draws := rfl

/-! ### setScreen -/

@[simp] theorem setScreen_v (f : Framebuffer) : (s.setScreen f).v = s.v := rfl
@[simp] theorem setScreen_pc (f : Framebuffer) : (s.setScreen f).pc = s.pc := rfl
@[simp] theorem setScreen_i (f : Framebuffer) : (s.setScreen f).i = s.i := rfl
@[simp] theorem setScreen_sp (f : Framebuffer) : (s.setScreen f).sp = s.sp := rfl
@[simp] theorem setScreen_stack (f : Framebuffer) : (s.setScreen f).stack = s.stack := rfl
@[simp] theorem setScreen_dt (f : Framebuffer) : (s.setScreen f).dt = s.dt := rfl
@[simp] theorem setScreen_st (f : Framebuffer) : (s.setScreen f).st = s.st := rfl
@[simp] theorem setScreen_key (f : Framebuffer) : (s.setScreen f).key = s.key := rfl
@[simp] theorem setScreen_fb (f : Framebuffer) : (s.setScreen f).fb = f := rfl
@[simp] theorem setScreen_mem (f : Framebuffer) : (s.setScreen f).mem = s.mem := rfl
@[simp] theorem setScreen_status (f : Framebuffer) : (s.setScreen f).status = s.status := rfl
@[simp] theorem setScreen_draws (f : Framebuffer) : (s.setScreen f).draws = s.draws := rfl

/-! ### setMem -/

@[simp] theorem setMem_v (m : Memory) : (s.setMem m).v = s.v := rfl
@[simp] theorem setMem_pc (m : Memory) : (s.setMem m).pc = s.pc := rfl
@[simp] theorem setMem_i (m : Memory) : (s.setMem m).i = s.i := rfl
@[simp] theorem setMem_sp (m : Memory) : (s.setMem m).sp = s.sp := rfl
@[simp] theorem setMem_stack (m : Memory) : (s.setMem m).stack = s.stack := rfl
@[simp] theorem setMem_dt (m : Memory) : (s.setMem m).dt = s.dt := rfl
@[simp] theorem setMem_st (m : Memory) : (s.setMem m).st = s.st := rfl
@[simp] theorem setMem_key (m : Memory) : (s.setMem m).key = s.key := rfl
@[simp] theorem setMem_fb (m : Memory) : (s.setMem m).fb = s.fb := rfl
@[simp] theorem setMem_mem (m : Memory) : (s.setMem m).mem = m := rfl
@[simp] theorem setMem_status (m : Memory) : (s.setMem m).status = s.status := rfl
@[simp] theorem setMem_draws (m : Memory) : (s.setMem m).draws = s.draws := rfl

/-! ### setStatus -/

@[simp] theorem setStatus_v (c : Status) : (s.setStatus c).v = s.v := rfl
@[simp] theorem setStatus_pc (c : Status) : (s.setStatus c).pc = s.pc := rfl
@[simp] theorem setStatus_i (c : Status) : (s.setStatus c).i = s.i := rfl
@[simp] theorem setStatus_sp (c : Status) : (s.setStatus c).sp = s.sp := rfl
@[simp] theorem setStatus_stack (c : Status) : (s.setStatus c).stack = s.stack := rfl
@[simp] theorem setStatus_dt (c : Status) : (s.setStatus c).dt = s.dt := rfl
@[simp] theorem setStatus_st (c : Status) : (s.setStatus c).st = s.st := rfl
@[simp] theorem setStatus_key (c : Status) : (s.setStatus c).key = s.key := rfl
@[simp] theorem setStatus_fb (c : Status) : (s.setStatus c).fb = s.fb := rfl
@[simp] theorem setStatus_mem (c : Status) : (s.setStatus c).mem = s.mem := rfl
@[simp] theorem setStatus_status (c : Status) : (s.setStatus c).status = c := rfl
@[simp] theorem setStatus_draws (c : Status) : (s.setStatus c).draws = s.draws := rfl

/-! ### skipIf -/

@[simp] theorem skipIf_v (c : Bool) : (s.skipIf c).v = s.v := by cases c <;> rfl
@[simp] theorem skipIf_i (c : Bool) : (s.skipIf c).i = s.i := by cases c <;> rfl
@[simp] theorem skipIf_sp (c : Bool) : (s.skipIf c).sp = s.sp := by cases c <;> rfl
@[simp] theorem skipIf_stack (c : Bool) : (s.skipIf c).stack = s.stack := by cases c <;> rfl
@[simp] theorem skipIf_dt (c : Bool) : (s.skipIf c).dt = s.dt := by cases c <;> rfl
@[simp] theorem skipIf_st (c : Bool) : (s.skipIf c).st = s.st := by cases c <;> rfl
@[simp] theorem skipIf_key (c : Bool) : (s.skipIf c).key = s.key := by cases c <;> rfl
@[simp] theorem skipIf_fb (c : Bool) : (s.skipIf c).fb = s.fb := by cases c <;> rfl
@[simp] theorem skipIf_mem (c : Bool) : (s.skipIf c).mem = s.mem := by cases c <;> rfl
@[simp] theorem skipIf_status (c : Bool) : (s.skipIf c).status = s.status := by cases c <;> rfl
@[simp] theorem skipIf_draws (c : Bool) : (s.skipIf c).draws = s.draws := by cases c <;> rfl

theorem skipIf_pc (c : Bool) : (s.skipIf c).pc = if c then s.pc + 4#16 else s.pc + 2#16 := by cases c <;> rfl

/-! ### Registers after an update -/

theorem reg_setReg (x y : Reg) (b : Byte) : (s.setReg x b).reg y = if y = x then b else s.reg y := by
  simp only [State.reg, State.setReg, Vector.getElem_set, BitVec.toNat_inj, eq_comm]

@[simp] theorem reg_setReg_self (x : Reg) (b : Byte) : (s.setReg x b).reg x = b := by simp [reg_setReg]

theorem reg_setReg_of_ne {x y : Reg} (b : Byte) (h : y ≠ x) : (s.setReg x b).reg y = s.reg y := by
  simp [reg_setReg, h]

/-- VF ends holding the flag, X = F included (R142). -/
@[simp] theorem reg_setResultAndFlag_flag (x : Reg) (b : Byte) (f : Bool) :
    (s.setResultAndFlag x b f).reg regF = flagByte f := reg_setReg_self _ _ _

theorem reg_setResultAndFlag_result {x : Reg} (b : Byte) (f : Bool) (h : x ≠ regF) :
    (s.setResultAndFlag x b f).reg x = b := by
  simp [State.setResultAndFlag, reg_setReg, h]

theorem reg_setResultAndFlag_of_ne {x y : Reg} (b : Byte) (f : Bool) (h : y ≠ x) (hf : y ≠ regF) :
    (s.setResultAndFlag x b f).reg y = s.reg y := by
  simp [State.setResultAndFlag, reg_setReg, h, hf]

/-- A block load gives V0..VX the bytes from I on and leaves the registers above X (R165). -/
theorem reg_loadRegs (x y : Reg) :
    (s.loadRegs x).reg y = if y.toNat ≤ x.toNat then s.mem.read (s.indexed y.toNat) else s.reg y := by
  simp only [State.reg, State.loadRegs, Vector.getElem_ofFn]

@[simp] theorem reg_jumpTo (p : Word) (r : Reg) : (s.jumpTo p).reg r = s.reg r := rfl
@[simp] theorem reg_advance (r : Reg) : s.advance.reg r = s.reg r := rfl
@[simp] theorem reg_skip (r : Reg) : s.skip.reg r = s.reg r := rfl
@[simp] theorem reg_setIndex (p : Word) (r : Reg) : (s.setIndex p).reg r = s.reg r := rfl
@[simp] theorem reg_push (p : Word) (r : Reg) : (s.push p).reg r = s.reg r := rfl
@[simp] theorem reg_pop (r : Reg) : s.pop.reg r = s.reg r := rfl
@[simp] theorem reg_countDraw (r : Reg) : s.countDraw.reg r = s.reg r := rfl
@[simp] theorem reg_storeAtIndex (bs : List Byte) (r : Reg) : (s.storeAtIndex bs).reg r = s.reg r := rfl
@[simp] theorem reg_setDelay (b : Byte) (r : Reg) : (s.setDelay b).reg r = s.reg r := rfl
@[simp] theorem reg_setSound (b : Byte) (r : Reg) : (s.setSound b).reg r = s.reg r := rfl
@[simp] theorem reg_setLatch (k : KeyLatch) (r : Reg) : (s.setLatch k).reg r = s.reg r := rfl
@[simp] theorem reg_setScreen (f : Framebuffer) (r : Reg) : (s.setScreen f).reg r = s.reg r := rfl
@[simp] theorem reg_setMem (m : Memory) (r : Reg) : (s.setMem m).reg r = s.reg r := rfl
@[simp] theorem reg_setStatus (c : Status) (r : Reg) : (s.setStatus c).reg r = s.reg r := rfl
@[simp] theorem reg_skipIf (c : Bool) (r : Reg) : (s.skipIf c).reg r = s.reg r := by cases c <;> rfl

/-! ### Stack slots after an update -/

@[simp] theorem slot_setReg (x : Reg) (b : Byte) (k : Fin Config.stackSlots) : (s.setReg x b).slot k = s.slot k := rfl
@[simp] theorem slot_setResultAndFlag (x : Reg) (b : Byte) (f : Bool) (k : Fin Config.stackSlots) : (s.setResultAndFlag x b f).slot k = s.slot k := rfl
@[simp] theorem slot_jumpTo (p : Word) (k : Fin Config.stackSlots) : (s.jumpTo p).slot k = s.slot k := rfl
@[simp] theorem slot_advance (k : Fin Config.stackSlots) : s.advance.slot k = s.slot k := rfl
@[simp] theorem slot_skip (k : Fin Config.stackSlots) : s.skip.slot k = s.slot k := rfl
@[simp] theorem slot_setIndex (p : Word) (k : Fin Config.stackSlots) : (s.setIndex p).slot k = s.slot k := rfl
@[simp] theorem slot_pop (k : Fin Config.stackSlots) : s.pop.slot k = s.slot k := rfl
@[simp] theorem slot_countDraw (k : Fin Config.stackSlots) : s.countDraw.slot k = s.slot k := rfl
@[simp] theorem slot_storeAtIndex (bs : List Byte) (k : Fin Config.stackSlots) : (s.storeAtIndex bs).slot k = s.slot k := rfl
@[simp] theorem slot_loadRegs (x : Reg) (k : Fin Config.stackSlots) : (s.loadRegs x).slot k = s.slot k := rfl
@[simp] theorem slot_drawSprite (a b : Nat) (rows : List Byte) (k : Fin Config.stackSlots) : (s.drawSprite a b rows).slot k = s.slot k := rfl
@[simp] theorem slot_setDelay (b : Byte) (k : Fin Config.stackSlots) : (s.setDelay b).slot k = s.slot k := rfl
@[simp] theorem slot_setSound (b : Byte) (k : Fin Config.stackSlots) : (s.setSound b).slot k = s.slot k := rfl
@[simp] theorem slot_setLatch (c : KeyLatch) (k : Fin Config.stackSlots) : (s.setLatch c).slot k = s.slot k := rfl
@[simp] theorem slot_setScreen (f : Framebuffer) (k : Fin Config.stackSlots) : (s.setScreen f).slot k = s.slot k := rfl
@[simp] theorem slot_setMem (m : Memory) (k : Fin Config.stackSlots) : (s.setMem m).slot k = s.slot k := rfl
@[simp] theorem slot_setStatus (c : Status) (k : Fin Config.stackSlots) : (s.setStatus c).slot k = s.slot k := rfl
@[simp] theorem slot_skipIf (c : Bool) (k : Fin Config.stackSlots) : (s.skipIf c).slot k = s.slot k := by cases c <;> rfl

theorem slot_push (p : Word) (k : Fin Config.stackSlots) :
    (s.push p).slot k = if k = s.sp + 1 then p else s.slot k := by
  simp only [State.slot, State.push, Vector.getElem_set, Fin.val_inj, eq_comm]

end Sys2Proof.Machine
end

