-- ==== Sys2Proof/Laws/Display.lean ====
section
/-! SUPPORT. The laws of the framebuffer. -/

namespace Sys2Proof.Machine

@[simp] theorem get_blank (p : Pixel) : Framebuffer.blank.get p = false := by
  simp [Framebuffer.get, Framebuffer.blank]

/-- Flipping a pixel changes that pixel only. -/
theorem get_flip (fb : Framebuffer) (p q : Pixel) :
    (fb.flip p).get q = if q = p then !fb.get p else fb.get q := by
  obtain ⟨px, py⟩ := p
  obtain ⟨qx, qy⟩ := q
  simp only [Framebuffer.flip, Framebuffer.get, Vector.getElem_set, Prod.mk.injEq]
  by_cases hx : qx = px
  · subst hx
    by_cases hy : qy = py
    · subst hy; simp
    · have : py.val ≠ qy.val := fun h => hy (Fin.ext h.symm)
      simp [hy, this]
  · have : px.val ≠ qx.val := fun h => hx (Fin.ext h.symm)
    simp [hx, this]

/-- Two framebuffers with the same pixels are the same. -/
theorem framebuffer_ext {fb fb' : Framebuffer} (h : ∀ p, fb.get p = fb'.get p) : fb = fb' := by
  apply Vector.ext
  intro x hx
  apply Vector.ext
  intro y hy
  exact h (⟨x, hx⟩, ⟨y, hy⟩)

@[simp] theorem blit_nil (fb : Framebuffer) : blit fb [] = (fb, false) := rfl

/-- VF after a sprite is the collision flag, and no other register changes (R181). -/
@[simp] theorem reg_drawSprite_flag (s : State) (a b : Nat) (rows : List Byte) :
    (s.drawSprite a b rows).reg regF = flagByte (blit s.fb (spritePixels a b rows)).2 := reg_setReg_self _ _ _

theorem reg_drawSprite_of_ne (s : State) (a b : Nat) (rows : List Byte) {r : Reg} (h : r ≠ regF) :
    (s.drawSprite a b rows).reg r = s.reg r := reg_setReg_of_ne _ _ h

@[simp] theorem drawSprite_fb (s : State) (a b : Nat) (rows : List Byte) :
    (s.drawSprite a b rows).fb = (blit s.fb (spritePixels a b rows)).1 := rfl

end Sys2Proof.Machine
end

