-- ==== Sys2Proof/Laws/Memory.lean ====
section
/-! SUPPORT. The laws of memory: a read after a write, and that every operation keeps the canonical form. -/

namespace Sys2Proof.Machine

theorem find_insert (a c : Nat) (v : Byte) (m : Memory) :
    Memory.find c (Memory.insert a v m) = if c = a then some v else Memory.find c m := by
  induction m with
  | nil => simp [Memory.insert, Memory.find, eq_comm]
  | cons e m ih =>
    obtain ⟨b, u⟩ := e
    simp only [Memory.insert]
    split
    · simp [Memory.find, eq_comm]
    · split
      · next h => subst h; simp only [Memory.find]; split <;> simp_all [eq_comm]
      · next h => simp only [Memory.find, ih]; split <;> simp_all

theorem find_erase (a c : Nat) (m : Memory) :
    Memory.find c (Memory.erase a m) = if c = a then none else Memory.find c m := by
  induction m with
  | nil => simp [Memory.erase, Memory.find]
  | cons e m ih =>
    obtain ⟨b, u⟩ := e
    simp only [Memory.erase]
    split
    · next h => subst h; rw [ih]; simp only [Memory.find]; split <;> simp_all [eq_comm]
    · next h => simp only [Memory.find, ih]; split <;> simp_all

/-- A read after a write: the written byte at its address, every other byte as before (R56). -/
theorem read_write (m : Memory) (a c : Nat) (v : Byte) :
    (m.write a v).read c = if c = a then v else m.read c := by
  simp only [Memory.read, Memory.write]
  split
  · next h => rw [find_erase]; split <;> simp_all
  · rw [find_insert]; split <;> simp

@[simp] theorem read_write_self (m : Memory) (a : Nat) (v : Byte) : (m.write a v).read a = v := by simp [read_write]

theorem read_write_of_ne (m : Memory) {a c : Nat} (v : Byte) (h : c ≠ a) : (m.write a v).read c = m.read c := by
  simp [read_write, h]

@[simp] theorem read_nil (a : Nat) : Memory.read [] a = initByte a := rfl

/-- Reading after a block store: the stored bytes in ascending order, every other byte as before. -/
theorem read_storeBytes (m : Memory) (a c : Nat) (bs : List Byte) :
    (m.storeBytes a bs).read c = if a ≤ c then bs.getD (c - a) (m.read c) else m.read c := by
  induction bs generalizing m a with
  | nil => simp [Memory.storeBytes]
  | cons b bs ih =>
    rw [Memory.storeBytes, ih, read_write]
    rcases Nat.lt_trichotomy c a with h | h | h
    · rw [if_neg (by omega), if_neg (by omega), if_neg (by omega)]
    · subst h; simp
    · obtain ⟨d, rfl⟩ := Nat.exists_eq_add_of_lt h
      rw [if_pos (by omega), if_neg (by omega), if_pos (by omega),
        show a + d + 1 - a = d + 1 by omega, show a + d + 1 - (a + 1) = d by omega]
      simp

theorem read_storeBytes_outside (m : Memory) {a c : Nat} (bs : List Byte) (h : c < a ∨ a + bs.length ≤ c) :
    (m.storeBytes a bs).read c = m.read c := by
  rw [read_storeBytes]
  split
  · rw [List.getD_eq_default _ _ (by omega)]
  · rfl

theorem length_loadBytes (m : Memory) (a n : Nat) : (m.loadBytes a n).length = n := by
  induction n generalizing a with
  | zero => rfl
  | succ n ih => simp [Memory.loadBytes, ih]

theorem getElem_loadBytes (m : Memory) (a n k : Nat) (h : k < (m.loadBytes a n).length) :
    (m.loadBytes a n)[k] = m.read (a + k) := by
  induction n generalizing a k with
  | zero => simp [Memory.loadBytes] at h
  | succ n ih =>
    cases k with
    | zero => simp [Memory.loadBytes]
    | succ k => simp only [Memory.loadBytes, List.getElem_cons_succ, ih]; congr 1; omega

/-! ### The canonical form -/

theorem wfFrom_mono {lo lo' : Nat} {m : Memory} (h : lo' ≤ lo) (hm : Memory.wfFrom lo m = true) :
    Memory.wfFrom lo' m = true := by
  cases m with
  | nil => rfl
  | cons e m => obtain ⟨a, v⟩ := e; simp [Memory.wfFrom] at hm ⊢; exact ⟨⟨⟨by omega, hm.1.1.2⟩, hm.1.2⟩, hm.2⟩

theorem wfFrom_insert {lo a : Nat} {v : Byte} {m : Memory} (hlo : lo ≤ a) (ha : a < Config.memSize)
    (hv : v ≠ initByte a) (hm : Memory.wfFrom lo m = true) : Memory.wfFrom lo (Memory.insert a v m) = true := by
  induction m generalizing lo with
  | nil => simp [Memory.insert, Memory.wfFrom, hlo, ha, hv]
  | cons e m ih =>
    obtain ⟨b, u⟩ := e
    simp only [Memory.wfFrom, Bool.and_eq_true, decide_eq_true_eq] at hm
    simp only [Memory.insert]
    split
    · simp only [Memory.wfFrom, Bool.and_eq_true, decide_eq_true_eq]
      exact ⟨⟨⟨hlo, ha⟩, hv⟩, ⟨⟨⟨by omega, hm.1.1.2⟩, hm.1.2⟩, hm.2⟩⟩
    · split
      · next h =>
        subst h
        simp only [Memory.wfFrom, Bool.and_eq_true, decide_eq_true_eq]
        exact ⟨⟨⟨hlo, ha⟩, hv⟩, hm.2⟩
      · simp only [Memory.wfFrom, Bool.and_eq_true, decide_eq_true_eq]
        exact ⟨hm.1, ih (by omega) hm.2⟩

theorem wfFrom_erase {lo a : Nat} {m : Memory} (hm : Memory.wfFrom lo m = true) :
    Memory.wfFrom lo (Memory.erase a m) = true := by
  induction m generalizing lo with
  | nil => rfl
  | cons e m ih =>
    obtain ⟨b, u⟩ := e
    simp only [Memory.wfFrom, Bool.and_eq_true, decide_eq_true_eq] at hm
    simp only [Memory.erase]
    split
    · exact wfFrom_mono (by omega) (ih hm.2)
    · simp only [Memory.wfFrom, Bool.and_eq_true, decide_eq_true_eq]; exact ⟨hm.1, ih hm.2⟩

/-- A write inside the address space keeps the canonical form. -/
theorem wf_write {m : Memory} {a : Nat} (v : Byte) (ha : a < Config.memSize) (hm : m.wf = true) :
    (m.write a v).wf = true := by
  simp only [Memory.write]
  split
  · exact wfFrom_erase hm
  · next h => exact wfFrom_insert (Nat.zero_le a) ha h hm

/-- A block store inside the address space keeps the canonical form. -/
theorem wf_storeBytes {m : Memory} {a : Nat} {bs : List Byte} (ha : a + bs.length ≤ Config.memSize) (hm : m.wf = true) :
    (m.storeBytes a bs).wf = true := by
  induction bs generalizing m a with
  | nil => exact hm
  | cons b bs ih =>
    rw [List.length_cons] at ha
    exact ih (by omega) (wf_write b (by omega) hm)

@[simp] theorem wf_nil : Memory.wf [] = true := rfl

/-! ### The bytes and registers a block store takes -/

theorem length_regsUpTo (s : State) (x : Reg) : (s.regsUpTo x).length = x.toNat + 1 := by
  have := x.isLt
  simp [State.regsUpTo]; omega

theorem getElem_regsUpTo (s : State) (x r : Reg) (h : r.toNat < (s.regsUpTo x).length) :
    (s.regsUpTo x)[r.toNat] = s.reg r := by
  simp [State.regsUpTo, State.reg]

end Sys2Proof.Machine
end

