-- ==== Sys2Proof/Laws/Ops.lean ====
section
/-! SUPPORT. What each shared operation can do, said once. -/

namespace Sys2Proof.Machine

/-- A fault answers a next state that differs from the old one in its status only (R213). -/
theorem raise_eq (s : State) (kind : FaultKind) (w : Option Word) :
    s.raise kind w = .next (s.setStatus (.faulted ⟨kind, w, s.pc⟩)) := rfl

/-- The address check either takes the fault, for an address above 0xFFF, or goes on. -/
theorem guardAddr_cases (s : State) (site : Site) (a : Nat) (w : Word) (go : Result) :
    (0xFFF < a ∧ s.guardAddr site a w go = s.raise (.outOfBounds site a) (some w)) ∨
    (a ≤ 0xFFF ∧ s.guardAddr site a w go = go) := by
  by_cases h : 0xFFF < a
  · exact .inl ⟨h, if_pos h⟩
  · exact .inr ⟨by omega, if_neg h⟩

theorem guardAddr_of_le (s : State) (site : Site) {a : Nat} (w : Word) (go : Result) (h : a ≤ 0xFFF) :
    s.guardAddr site a w go = go := if_neg (Nat.not_lt.mpr h)

theorem guardAddr_of_lt (s : State) (site : Site) {a : Nat} (w : Word) (go : Result) (h : 0xFFF < a) :
    s.guardAddr site a w go = s.raise (.outOfBounds site a) (some w) := if_pos h

/-- The access check either takes the fault, with the highest address of the access, or goes on with every byte of the
access inside memory. -/
theorem guardAccess_cases (s : State) (site : Site) (n : Nat) (w : Word) (go : Result) :
    (0 < n ∧ 0xFFF < s.i.toNat + n - 1 ∧
      s.guardAccess site n w go = s.raise (.outOfBounds site (s.i.toNat + n - 1)) (some w)) ∨
    ((n = 0 ∨ s.i.toNat + n ≤ 0x1000) ∧ s.guardAccess site n w go = go) := by
  unfold State.guardAccess
  by_cases h0 : n = 0
  · exact .inr ⟨.inl h0, if_pos h0⟩
  · rw [if_neg h0]
    have e : s.indexed (n - 1) = s.i.toNat + n - 1 := by unfold State.indexed; omega
    rcases guardAddr_cases s site (s.indexed (n - 1)) w go with ⟨h, hg⟩ | ⟨h, hg⟩
    · exact .inl ⟨by omega, by omega, by rw [hg, e]⟩
    · exact .inr ⟨.inr (by omega), hg⟩

theorem guardAccess_of_fits (s : State) (site : Site) {n : Nat} (w : Word) (go : Result)
    (h : n = 0 ∨ s.i.toNat + n ≤ 0x1000) : s.guardAccess site n w go = go := by
  rcases guardAccess_cases s site n w go with ⟨h0, h1, _⟩ | ⟨_, hg⟩
  · omega
  · exact hg

/-! ### Results and flags as numbers (R141) -/

theorem addByte_toNat (a b : Byte) : (addByte a b).toNat = (a.toNat + b.toNat) % 256 := by
  simp [addByte]

theorem subByte_eq (a b : Byte) : subByte a b = a - b := by
  apply BitVec.eq_of_toInt_eq
  have ha := a.isLt
  have hb := b.isLt
  simp only [subByte, BitVec.toInt_ofInt, BitVec.toInt_sub]
  rw [BitVec.toInt_eq_toNat_bmod, BitVec.toInt_eq_toNat_bmod]
  simp

theorem subByte_toNat (a b : Byte) : (subByte a b).toNat = (a.toNat + 256 - b.toNat) % 256 := by
  rw [subByte_eq, BitVec.toNat_sub]
  have := b.isLt
  have := a.isLt
  omega

theorem shrByte_toNat (a : Byte) : (shrByte a).toNat = a.toNat / 2 := by
  simp [shrByte, Nat.shiftRight_eq_div_pow]

theorem shlByte_toNat (a : Byte) : (shlByte a).toNat = a.toNat * 2 % 256 := by
  simp [shlByte]

@[simp] theorem flagByte_true : flagByte true = 1 := rfl

@[simp] theorem flagByte_false : flagByte false = 0 := rfl

theorem zext12_toNat (nnn : Addr12) : (zext12 nnn).toNat = nnn.toNat := by
  have := nnn.isLt
  simp only [zext12, BitVec.toNat_setWidth]
  omega

theorem zext12_le (nnn : Addr12) : (zext12 nnn).toNat ≤ 0xFFF := by
  have := nnn.isLt
  rw [zext12_toNat]
  omega

theorem fontDigitOf_le (c : Config.FontDigit) (v : Byte) : fontDigitOf c v ≤ 255 := by
  cases c with
  | masked => have := (v &&& 0x0F#8).isLt; simp only [fontDigitOf]; omega
  | unmasked => have := v.isLt; simp only [fontDigitOf]; omega

/-- FX29 never leaves an index above 0x6AB (R26, R162). -/
theorem fontAddr_le (v : Byte) : (fontAddr v).toNat ≤ 0x6AB := by
  have := fontDigitOf_le Config.fontDigitAddr v
  have := Config.fontBase.isLt
  simp only [fontAddr, fontAddrOf, BitVec.toNat_ofNat]
  rw [Nat.mod_eq_of_lt (by omega)]
  omega

end Sys2Proof.Machine
end

