-- ==== Sys2Proof/Laws/Meanings.lean ====
section
/-! SUPPORT. The meanings that can fault, each said once: it takes its one fault, or it completes with its effect. The
other meanings complete by unfolding. -/

namespace Sys2Proof.Machine

variable (s : State)

theorem execRet_cases :
    (s.sp = 0 ∧ execRet s = s.raise .stackUnderflow (some (encode .ret))) ∨
    (s.sp ≠ 0 ∧ execRet s = .next (s.pop.jumpTo (s.slot s.sp))) := by
  by_cases h : s.sp = 0
  · exact .inl ⟨h, if_pos h⟩
  · exact .inr ⟨h, if_neg h⟩

theorem execCall_cases (nnn : Addr12) :
    (s.sp = 24 ∧ execCall nnn s = s.raise .stackOverflow (some (encode (.call nnn)))) ∨
    (s.sp ≠ 24 ∧ execCall nnn s = .next ((s.push (s.pc + 2#16)).jumpTo (zext12 nnn))) := by
  by_cases h : s.sp = 24
  · exact .inl ⟨h, if_pos h⟩
  · exact .inr ⟨h, if_neg h⟩

theorem execJpV0_cases (nnn : Addr12) :
    (0xFFF < nnn.toNat + (s.reg reg0).toNat ∧
      execJpV0 nnn s = s.raise (.outOfBounds .jump (nnn.toNat + (s.reg reg0).toNat)) (some (encode (.jpV0 nnn)))) ∨
    (nnn.toNat + (s.reg reg0).toNat ≤ 0xFFF ∧
      execJpV0 nnn s = .next (s.jumpTo (BitVec.ofNat 16 (nnn.toNat + (s.reg reg0).toNat)))) := by
  simp only [execJpV0, zext12_toNat]
  exact guardAddr_cases s _ _ _ _

theorem execAddI_cases (x : Reg) :
    (0xFFF < s.i.toNat + (s.reg x).toNat ∧
      execAddI x s = s.raise (.outOfBounds .index (s.i.toNat + (s.reg x).toNat)) (some (encode (.addI x)))) ∨
    (s.i.toNat + (s.reg x).toNat ≤ 0xFFF ∧
      execAddI x s = .next (s.setIndex (BitVec.ofNat 16 (s.i.toNat + (s.reg x).toNat))).advance) :=
  guardAddr_cases s _ _ _ _

theorem execLdB_cases (x : Reg) :
    (0xFFF < s.i.toNat + 2 ∧
      execLdB x s = s.raise (.outOfBounds .write (s.i.toNat + 2)) (some (encode (.ldB x)))) ∨
    (s.i.toNat + 2 ≤ 0xFFF ∧ execLdB x s = .next (s.storeAtIndex (decimalDigits (s.reg x))).advance) := by
  rcases guardAccess_cases s .write 3 (encode (.ldB x)) (.next (s.storeAtIndex (decimalDigits (s.reg x))).advance)
    with ⟨_, h, e⟩ | ⟨h, e⟩
  · exact .inl ⟨by omega, e⟩
  · exact .inr ⟨by omega, e⟩

theorem execLdMemVx_cases (x : Reg) :
    (0xFFF < s.i.toNat + x.toNat ∧
      execLdMemVx x s = s.raise (.outOfBounds .write (s.i.toNat + x.toNat)) (some (encode (.ldMemVx x)))) ∨
    (s.i.toNat + x.toNat ≤ 0xFFF ∧ execLdMemVx x s = .next (s.storeAtIndex (s.regsUpTo x)).advance) := by
  rcases guardAccess_cases s .write (x.toNat + 1) (encode (.ldMemVx x)) (.next (s.storeAtIndex (s.regsUpTo x)).advance)
    with ⟨_, h, e⟩ | ⟨h, e⟩
  · exact .inl ⟨by omega, e⟩
  · exact .inr ⟨by omega, e⟩

theorem execLdVxMem_cases (x : Reg) :
    (0xFFF < s.i.toNat + x.toNat ∧
      execLdVxMem x s = s.raise (.outOfBounds .read (s.i.toNat + x.toNat)) (some (encode (.ldVxMem x)))) ∨
    (s.i.toNat + x.toNat ≤ 0xFFF ∧ execLdVxMem x s = .next (s.loadRegs x).advance) := by
  rcases guardAccess_cases s .read (x.toNat + 1) (encode (.ldVxMem x)) (.next (s.loadRegs x).advance)
    with ⟨_, h, e⟩ | ⟨h, e⟩
  · exact .inl ⟨by omega, e⟩
  · exact .inr ⟨by omega, e⟩

theorem execDrw_cases (x y : Reg) (n : BitVec 4) :
    (0 < n.toNat ∧ 0xFFF < s.i.toNat + n.toNat - 1 ∧
      execDrw x y n s = s.raise (.outOfBounds .read (s.i.toNat + n.toNat - 1)) (some (encode (.drw x y n)))) ∨
    ((n.toNat = 0 ∨ s.i.toNat + n.toNat - 1 ≤ 0xFFF) ∧
      execDrw x y n s = .next (s.drawSprite (s.reg x).toNat (s.reg y).toNat
        (s.mem.loadBytes (s.indexed 0) n.toNat)).advance) := by
  rcases guardAccess_cases s .read n.toNat (encode (.drw x y n)) (.next (s.drawSprite (s.reg x).toNat (s.reg y).toNat
      (s.mem.loadBytes (s.indexed 0) n.toNat)).advance) with ⟨h0, h, e⟩ | ⟨h, e⟩
  · exact .inl ⟨h0, h, e⟩
  · exact .inr ⟨by omega, e⟩

theorem execLdVxK_cases (x : Reg) :
    (s.key = none ∧ execLdVxK x s = .next s) ∨
    (∃ k, s.key = some k ∧ execLdVxK x s = .next (s.setReg x (keyCode k)).advance) := by
  unfold execLdVxK
  cases s.key with
  | none => exact .inl ⟨rfl, rfl⟩
  | some k => exact .inr ⟨k, rfl, rfl⟩

end Sys2Proof.Machine
end

