-- ==== Sys2Proof/Laws/PerInstr.lean ====
section
/-! SUPPORT. Statements about every instruction as syntax, one lemma per constructor. -/

/-- The word of a well-formed instruction is of its own row of the opcode table (spec/30_encoding.md R75). -/
def Sys2Proof.Laws.TableRow.Statement (i : Sys2Proof.Instr) : Prop :=
  i.wf = true → ∃ r ∈ Sys2Proof.opcodeTable, r.mnemonic = i.mnemonic ∧ r.matches (Sys2Proof.encode i) = true

namespace Sys2Proof.Laws.TableRow

open Sys2Proof

theorem xnn_op (op : BitVec 4) (x : Reg) (nn : Byte) : packXNN op x nn &&& 0xF000#16 = packXNN op 0#4 0#8 := by
  apply BitVec.eq_of_toNat_eq
  have := x.isLt
  have := nn.isLt
  simp only [and_F000, packXNN_toNat, BitVec.toNat_ofNat, Nat.zero_mod]
  omega

theorem nnn_op (op : BitVec 4) (nnn : Addr12) : packNNN op nnn &&& 0xF000#16 = packNNN op 0#12 := by
  apply BitVec.eq_of_toNat_eq
  have := nnn.isLt
  simp only [and_F000, packNNN_toNat, BitVec.toNat_ofNat, Nat.zero_mod]
  omega

theorem xyn_op (op : BitVec 4) (x y : Reg) (n : BitVec 4) : packXYN op x y n &&& 0xF000#16 = packXYN op 0#4 0#4 0#4 := by
  apply BitVec.eq_of_toNat_eq
  have := x.isLt
  have := y.isLt
  have := n.isLt
  simp only [and_F000, packXYN_toNat, BitVec.toNat_ofNat, Nat.zero_mod]
  omega

theorem xyn_low (op : BitVec 4) (x y : Reg) (n : BitVec 4) : packXYN op x y n &&& 0xF00F#16 = packXYN op 0#4 0#4 n := by
  apply BitVec.eq_of_toNat_eq
  have := x.isLt
  have := y.isLt
  have := n.isLt
  simp only [and_F00F, packXYN_toNat, BitVec.toNat_ofNat, Nat.zero_mod]
  omega

theorem xnn_low (op : BitVec 4) (x : Reg) (nn : Byte) : packXNN op x nn &&& 0xF0FF#16 = packXNN op 0#4 nn := by
  apply BitVec.eq_of_toNat_eq
  have := x.isLt
  have := nn.isLt
  simp only [and_F0FF, packXNN_toNat, BitVec.toNat_ofNat, Nat.zero_mod]
  omega

theorem row_nnn {m : String} {op : BitVec 4} {nnn : Addr12} {pat : Word} (h : packNNN op 0#12 = pat) :
    (OpRow.mk m 0xF000#16 pat).matches (packNNN op nnn) = true :=
  beq_iff_eq.mpr ((nnn_op op nnn).trans h)

theorem row_xnn {m : String} {op : BitVec 4} {x : Reg} {nn : Byte} {pat : Word} (h : packXNN op 0#4 0#8 = pat) :
    (OpRow.mk m 0xF000#16 pat).matches (packXNN op x nn) = true :=
  beq_iff_eq.mpr ((xnn_op op x nn).trans h)

theorem row_xyn {m : String} {op : BitVec 4} {x y : Reg} {n : BitVec 4} {pat : Word}
    (h : packXYN op 0#4 0#4 0#4 = pat) : (OpRow.mk m 0xF000#16 pat).matches (packXYN op x y n) = true :=
  beq_iff_eq.mpr ((xyn_op op x y n).trans h)

theorem row_xy {m : String} {op : BitVec 4} {x y : Reg} {n : BitVec 4} {pat : Word}
    (h : packXYN op 0#4 0#4 n = pat) : (OpRow.mk m 0xF00F#16 pat).matches (packXYN op x y n) = true :=
  beq_iff_eq.mpr ((xyn_low op x y n).trans h)

theorem row_x {m : String} {op : BitVec 4} {x : Reg} {nn : Byte} {pat : Word} (h : packXNN op 0#4 nn = pat) :
    (OpRow.mk m 0xF0FF#16 pat).matches (packXNN op x nn) = true :=
  beq_iff_eq.mpr ((xnn_low op x nn).trans h)

theorem cls : Statement .cls := fun _ =>
  ⟨⟨"CLS", 0xFFFF, 0x00E0⟩, by decide, rfl, rfl⟩

theorem ret : Statement .ret := fun _ =>
  ⟨⟨"RET", 0xFFFF, 0x00EE⟩, by decide, rfl, rfl⟩

theorem jp (nnn : Addr12) : Statement (.jp nnn) := fun _ =>
  ⟨⟨"JP", 0xF000, 0x1000⟩, by decide, rfl, row_nnn rfl⟩

theorem call (nnn : Addr12) : Statement (.call nnn) := fun _ =>
  ⟨⟨"CALL", 0xF000, 0x2000⟩, by decide, rfl, row_nnn rfl⟩

theorem seImm (x : Reg) (nn : Byte) : Statement (.seImm x nn) := fun _ =>
  ⟨⟨"SE_IMM", 0xF000, 0x3000⟩, by decide, rfl, row_xnn rfl⟩

theorem sneImm (x : Reg) (nn : Byte) : Statement (.sneImm x nn) := fun _ =>
  ⟨⟨"SNE_IMM", 0xF000, 0x4000⟩, by decide, rfl, row_xnn rfl⟩

theorem seReg (x y : Reg) : Statement (.seReg x y) := fun _ =>
  ⟨⟨"SE_REG", 0xF00F, 0x5000⟩, by decide, rfl, row_xy rfl⟩

theorem ldImm (x : Reg) (nn : Byte) : Statement (.ldImm x nn) := fun _ =>
  ⟨⟨"LD_IMM", 0xF000, 0x6000⟩, by decide, rfl, row_xnn rfl⟩

theorem addImm (x : Reg) (nn : Byte) : Statement (.addImm x nn) := fun _ =>
  ⟨⟨"ADD_IMM", 0xF000, 0x7000⟩, by decide, rfl, row_xnn rfl⟩

theorem ldReg (x y : Reg) : Statement (.ldReg x y) := fun _ =>
  ⟨⟨"LD_REG", 0xF00F, 0x8000⟩, by decide, rfl, row_xy rfl⟩

theorem or (x y : Reg) : Statement (.or x y) := fun _ =>
  ⟨⟨"OR", 0xF00F, 0x8001⟩, by decide, rfl, row_xy rfl⟩

theorem and (x y : Reg) : Statement (.and x y) := fun _ =>
  ⟨⟨"AND", 0xF00F, 0x8002⟩, by decide, rfl, row_xy rfl⟩

theorem xor (x y : Reg) : Statement (.xor x y) := fun _ =>
  ⟨⟨"XOR", 0xF00F, 0x8003⟩, by decide, rfl, row_xy rfl⟩

theorem addReg (x y : Reg) : Statement (.addReg x y) := fun _ =>
  ⟨⟨"ADD_REG", 0xF00F, 0x8004⟩, by decide, rfl, row_xy rfl⟩

theorem sub (x y : Reg) : Statement (.sub x y) := fun _ =>
  ⟨⟨"SUB", 0xF00F, 0x8005⟩, by decide, rfl, row_xy rfl⟩

theorem shr (x y : Reg) : Statement (.shr x y) := fun _ =>
  ⟨⟨"SHR", 0xF00F, 0x8006⟩, by decide, rfl, row_xy rfl⟩

theorem subn (x y : Reg) : Statement (.subn x y) := fun _ =>
  ⟨⟨"SUBN", 0xF00F, 0x8007⟩, by decide, rfl, row_xy rfl⟩

theorem shl (x y : Reg) : Statement (.shl x y) := fun _ =>
  ⟨⟨"SHL", 0xF00F, 0x800E⟩, by decide, rfl, row_xy rfl⟩

theorem sneReg (x y : Reg) : Statement (.sneReg x y) := fun _ =>
  ⟨⟨"SNE_REG", 0xF00F, 0x9000⟩, by decide, rfl, row_xy rfl⟩

theorem ldI (nnn : Addr12) : Statement (.ldI nnn) := fun _ =>
  ⟨⟨"LD_I", 0xF000, 0xA000⟩, by decide, rfl, row_nnn rfl⟩

theorem jpV0 (nnn : Addr12) : Statement (.jpV0 nnn) := fun _ =>
  ⟨⟨"JP_V0", 0xF000, 0xB000⟩, by decide, rfl, row_nnn rfl⟩

theorem rnd (x : Reg) (nn : Byte) : Statement (.rnd x nn) := fun _ =>
  ⟨⟨"RND", 0xF000, 0xC000⟩, by decide, rfl, row_xnn rfl⟩

theorem drw (x y : Reg) (n : BitVec 4) : Statement (.drw x y n) := fun _ =>
  ⟨⟨"DRW", 0xF000, 0xD000⟩, by decide, rfl, row_xyn rfl⟩

theorem skp (x : Reg) : Statement (.skp x) := fun _ =>
  ⟨⟨"SKP", 0xF0FF, 0xE09E⟩, by decide, rfl, row_x rfl⟩

theorem sknp (x : Reg) : Statement (.sknp x) := fun _ =>
  ⟨⟨"SKNP", 0xF0FF, 0xE0A1⟩, by decide, rfl, row_x rfl⟩

theorem ldVxDt (x : Reg) : Statement (.ldVxDt x) := fun _ =>
  ⟨⟨"LD_VX_DT", 0xF0FF, 0xF007⟩, by decide, rfl, row_x rfl⟩

theorem ldVxK (x : Reg) : Statement (.ldVxK x) := fun _ =>
  ⟨⟨"LD_VX_K", 0xF0FF, 0xF00A⟩, by decide, rfl, row_x rfl⟩

theorem ldDtVx (x : Reg) : Statement (.ldDtVx x) := fun _ =>
  ⟨⟨"LD_DT_VX", 0xF0FF, 0xF015⟩, by decide, rfl, row_x rfl⟩

theorem ldStVx (x : Reg) : Statement (.ldStVx x) := fun _ =>
  ⟨⟨"LD_ST_VX", 0xF0FF, 0xF018⟩, by decide, rfl, row_x rfl⟩

theorem addI (x : Reg) : Statement (.addI x) := fun _ =>
  ⟨⟨"ADD_I", 0xF0FF, 0xF01E⟩, by decide, rfl, row_x rfl⟩

theorem ldF (x : Reg) : Statement (.ldF x) := fun _ =>
  ⟨⟨"LD_F", 0xF0FF, 0xF029⟩, by decide, rfl, row_x rfl⟩

theorem ldB (x : Reg) : Statement (.ldB x) := fun _ =>
  ⟨⟨"LD_B", 0xF0FF, 0xF033⟩, by decide, rfl, row_x rfl⟩

theorem ldMemVx (x : Reg) : Statement (.ldMemVx x) := fun _ =>
  ⟨⟨"LD_MEM_VX", 0xF0FF, 0xF055⟩, by decide, rfl, row_x rfl⟩

theorem ldVxMem (x : Reg) : Statement (.ldVxMem x) := fun _ =>
  ⟨⟨"LD_VX_MEM", 0xF0FF, 0xF065⟩, by decide, rfl, row_x rfl⟩

end Sys2Proof.Laws.TableRow
end

