-- ==== Sys2Proof/Laws/Step.lean ====
section
/-! SUPPORT. What one step can do, said once: the cases of the fetch, and of `step`. -/

namespace Sys2Proof.Machine

/-- The cases of what a cycle finds before it executes (R70, R215). -/
theorem fetchInstr_cases (s : State) :
    (∃ f, s.status = .faulted f ∧ fetchInstr s = .halted f) ∨
    (s.status = .running ∧ 0xFFE < s.pc.toNat ∧ fetchInstr s = .outOfBounds) ∨
    (s.status = .running ∧ s.pc.toNat ≤ 0xFFE ∧ decode s.fetchWord = none ∧ fetchInstr s = .unknown s.fetchWord) ∨
    (s.status = .running ∧ s.pc.toNat ≤ 0xFFE ∧ ∃ i, decode s.fetchWord = some i ∧ fetchInstr s = .instr i) := by
  unfold fetchInstr State.fetchInBounds
  cases hs : s.status with
  | faulted f => exact .inl ⟨f, rfl, rfl⟩
  | running =>
    refine .inr ?_
    by_cases hb : s.pc.toNat + 1 ≤ Config.topAddr
    · refine .inr ?_
      have hb' : s.pc.toNat ≤ 0xFFE := Nat.le_of_succ_le_succ hb
      cases hd : decode s.fetchWord with
      | none => exact .inl ⟨rfl, hb', rfl, by simp [hb]⟩
      | some i => exact .inr ⟨rfl, hb', i, rfl, by simp [hb]⟩
    · exact .inl ⟨rfl, by simp only [Config.topAddr] at hb; omega, by simp [hb]⟩

/-- A step that answers a next state was a step of a running machine, and is one of three: a fetch out of bounds, an
unknown opcode, or the meaning of the decoded instruction. -/
theorem step_cases {s t : State} (h : step s = .next t) :
    s.status = .running ∧
    ((0xFFE < s.pc.toNat ∧ .next t = raiseFetch s) ∨
     (s.pc.toNat ≤ 0xFFE ∧ decode s.fetchWord = none ∧ .next t = raiseUnknown s.fetchWord s) ∨
     (s.pc.toNat ≤ 0xFFE ∧ ∃ i, decode s.fetchWord = some i ∧ exec i s = .next t)) := by
  unfold step at h
  rcases fetchInstr_cases s with ⟨f, hs, hf⟩ | ⟨hs, hb, hf⟩ | ⟨hs, hb, hd, hf⟩ | ⟨hs, hb, i, hd, hf⟩ <;> rw [hf] at h
  · cases h
  · exact ⟨hs, .inl ⟨hb, h.symm⟩⟩
  · exact ⟨hs, .inr (.inl ⟨hb, hd, h.symm⟩)⟩
  · exact ⟨hs, .inr (.inr ⟨hb, i, hd, h⟩)⟩

end Sys2Proof.Machine
end

