-- ==== Sys2Proof/Tests/Slice0.lean ====
section
/-! SUPPORT. The model's own tests. Each expected value is from spec/95_test_vectors.md (its row named in the comment) or
calculated by hand from the rule named. -/

namespace Sys2Proof.Tests

open Sys2Proof Sys2Proof.Machine

/-! ## Helpers -/

/-- What a field of the next state holds, if there is a next state. -/
def look {α : Type} (o : Result) (f : State → α) : Option α :=
  match o with
  | .next t => some (f t)
  | _ => none

/-- The reset state with some registers set. -/
def withV (l : List (Reg × Byte)) : State := l.foldl (fun s p => s.setReg p.1 p.2) State.reset

/-- One cycle of the word `w` placed at PC. -/
def cycle (w : Nat) (s : State) : Result := step (s.withFetchWord 16 w)

/-- A byte placed in memory. -/
def poke (a : Nat) (bs : List Byte) (s : State) : State := { s with mem := s.mem.storeBytes a bs }

/-! ## Well-formedness: the one check there is -/

theorem test_wf_refuses_rom_too_large : Rom.wf (List.replicate 3585 0) = false := by
  rw [Rom.wf, List.length_replicate]
  decide

theorem test_wf_accepts_largest_rom : Rom.wf (List.replicate 3584 0) = true := by
  rw [Rom.wf, List.length_replicate]
  decide

/-! ## Decoding: for every constructor a word written out from the encoding column of R75 -/

theorem test_decode_cls : decode 0b0000000011100000#16 = some .cls := by decide
theorem test_decode_ret : decode 0b0000000011101110#16 = some .ret := by decide
theorem test_decode_jp : decode 0b0001001000110100#16 = some (.jp 0x234#12) := by decide
theorem test_decode_call : decode 0b0010001100000000#16 = some (.call 0x300#12) := by decide
theorem test_decode_seImm : decode 0b0011001101000010#16 = some (.seImm 3#4 0x42#8) := by decide
theorem test_decode_sneImm : decode 0b0100001101000010#16 = some (.sneImm 3#4 0x42#8) := by decide
theorem test_decode_seReg : decode 0b0101000100100000#16 = some (.seReg 1#4 2#4) := by decide
theorem test_decode_ldImm : decode 0b0110000000000101#16 = some (.ldImm 0#4 0x05#8) := by decide
theorem test_decode_addImm : decode 0b0111000000000011#16 = some (.addImm 0#4 0x03#8) := by decide
theorem test_decode_ldReg : decode 0b1000000100100000#16 = some (.ldReg 1#4 2#4) := by decide
theorem test_decode_or : decode 0b1000000100100001#16 = some (.or 1#4 2#4) := by decide
theorem test_decode_and : decode 0b1000000100100010#16 = some (.and 1#4 2#4) := by decide
theorem test_decode_xor : decode 0b1000000100100011#16 = some (.xor 1#4 2#4) := by decide
theorem test_decode_addReg : decode 0b1000101010110100#16 = some (.addReg 0xA#4 0xB#4) := by decide
theorem test_decode_sub : decode 0b1000000100100101#16 = some (.sub 1#4 2#4) := by decide
theorem test_decode_shr : decode 0b1000000100100110#16 = some (.shr 1#4 2#4) := by decide
theorem test_decode_subn : decode 0b1000000100100111#16 = some (.subn 1#4 2#4) := by decide
theorem test_decode_shl : decode 0b1000000100101110#16 = some (.shl 1#4 2#4) := by decide
theorem test_decode_sneReg : decode 0b1001000100100000#16 = some (.sneReg 1#4 2#4) := by decide
theorem test_decode_ldI : decode 0b1010001000101010#16 = some (.ldI 0x22A#12) := by decide
theorem test_decode_jpV0 : decode 0b1011001100000000#16 = some (.jpV0 0x300#12) := by decide
theorem test_decode_rnd : decode 0b1100001100001111#16 = some (.rnd 3#4 0x0F#8) := by decide
theorem test_decode_drw : decode 0b1101000100100101#16 = some (.drw 1#4 2#4 5#4) := by decide
theorem test_decode_skp : decode 0b1110001010011110#16 = some (.skp 2#4) := by decide
theorem test_decode_sknp : decode 0b1110001010100001#16 = some (.sknp 2#4) := by decide
theorem test_decode_ldVxDt : decode 0b1111001100000111#16 = some (.ldVxDt 3#4) := by decide
theorem test_decode_ldVxK : decode 0b1111000100001010#16 = some (.ldVxK 1#4) := by decide
theorem test_decode_ldDtVx : decode 0b1111001100010101#16 = some (.ldDtVx 3#4) := by decide
theorem test_decode_ldStVx : decode 0b1111001100011000#16 = some (.ldStVx 3#4) := by decide
theorem test_decode_addI : decode 0b1111001000011110#16 = some (.addI 2#4) := by decide
theorem test_decode_ldF : decode 0b1111010000101001#16 = some (.ldF 4#4) := by decide
theorem test_decode_ldB : decode 0b1111010100110011#16 = some (.ldB 5#4) := by decide
theorem test_decode_ldMemVx : decode 0b1111001101010101#16 = some (.ldMemVx 3#4) := by decide
theorem test_decode_ldVxMem : decode 0b1111001101100101#16 = some (.ldVxMem 3#4) := by decide

/-- Rows A30, B18, B21, T19, D1e to D4e: words of no row are rejected. -/
theorem test_decode_rejects :
    [0x8128#16, 0x812F#16, 0x8008#16, 0x5121#16, 0x9121#16, 0xE09F#16, 0xF000#16, 0xF0FF#16, 0x0000#16, 0x0123#16,
      0x00E1#16, 0xE000#16].all (fun w => (decode w).isNone) = true := by decide

/-- R53: the byte at the lower address is the high byte, and bytes after the word are left over. -/
theorem test_decodeBytes_bigEndian : decodeBytes [0xA2#8, 0x2A#8, 0x99#8] = .ok (.ldI 0x22A#12, [0x99#8]) := rfl

theorem test_decodeBytes_names_the_word : decodeBytes [0x01#8, 0x23#8] = .error (.unknownOpcode 0x0123#16) := rfl

theorem test_decodeBytes_truncated : decodeBytes [0xA2#8] = .error .truncated := rfl

/-! ## Register ALU: rows of L2.1 -/

/-- A1. -/
theorem test_addReg_carry :
    look (cycle 0x8124 (withV [(1, 0xFF), (2, 0x02), (15, 0x55)])) (fun t => (t.reg 1, t.reg 15, t.pc)) =
      some (0x01, 1, 0x202) := by decide

/-- A4: the flag overwrites the sum. -/
theorem test_addReg_into_VF :
    look (cycle 0x8F24 (withV [(15, 0xF0), (2, 0x20)])) (fun t => t.reg 15) = some 1 := by decide

/-- A6. -/
theorem test_sub_borrow :
    look (cycle 0x8125 (withV [(1, 3), (2, 5)])) (fun t => (t.reg 1, t.reg 15)) = some (0xFE, 0) := by decide

/-- A7: equal operands do not borrow. -/
theorem test_sub_equal :
    look (cycle 0x8125 (withV [(1, 5), (2, 5)])) (fun t => (t.reg 1, t.reg 15)) = some (0, 1) := by decide

/-- A11. -/
theorem test_subn_borrow :
    look (cycle 0x8127 (withV [(1, 5), (2, 3)])) (fun t => (t.reg 1, t.reg 15)) = some (0xFE, 0) := by decide

/-- A12. -/
theorem test_subn_no_borrow :
    look (cycle 0x8127 (withV [(1, 3), (2, 5)])) (fun t => (t.reg 1, t.reg 15)) = some (0x02, 1) := by decide

/-- A14: the shift is of V[X], not V[Y]. -/
theorem test_shr_of_Vx :
    look (cycle 0x8126 (withV [(1, 0x05), (2, 0xFF)])) (fun t => (t.reg 1, t.reg 2, t.reg 15)) =
      some (0x02, 0xFF, 1) := by decide

/-- A16. -/
theorem test_shr_of_VF : look (cycle 0x8F06 (withV [(15, 0x03)])) (fun t => t.reg 15) = some 1 := by decide

/-- A17. -/
theorem test_shl : look (cycle 0x812E (withV [(1, 0x81)])) (fun t => (t.reg 1, t.reg 15)) = some (0x02, 1) := by
  decide

/-- A19. -/
theorem test_shl_of_VF : look (cycle 0x8FFE (withV [(15, 0x80)])) (fun t => t.reg 15) = some 1 := by decide

/-- A20. -/
theorem test_or :
    look (cycle 0x8121 (withV [(1, 0x0F), (2, 0xF0), (15, 0x77)])) (fun t => (t.reg 1, t.reg 15)) =
      some (0xFF, 0x77) := by decide

/-- A21. -/
theorem test_and :
    look (cycle 0x8122 (withV [(1, 0x3C), (2, 0x0F), (15, 0x77)])) (fun t => (t.reg 1, t.reg 15)) =
      some (0x0C, 0x77) := by decide

/-- A22. -/
theorem test_xor :
    look (cycle 0x8123 (withV [(1, 0x3C), (2, 0x0F), (15, 0x77)])) (fun t => (t.reg 1, t.reg 15)) =
      some (0x33, 0x77) := by decide

/-- A24. -/
theorem test_ldReg : look (cycle 0x8120 (withV [(2, 0x11)])) (fun t => t.reg 1) = some 0x11 := by decide

/-- A25. -/
theorem test_ldImm : look (cycle 0x6AFF State.reset) (fun t => (t.reg 10, t.pc)) = some (0xFF, 0x202) := by
  decide

/-- A26: no carry from 7XNN. -/
theorem test_addImm_wraps :
    look (cycle 0x7A02 (withV [(10, 0xFF), (15, 0x55)])) (fun t => (t.reg 10, t.reg 15)) = some (0x01, 0x55) := by
  decide

/-- A28. -/
theorem test_rnd_masks_the_draw : look (rndWith 0xA7 3 0x0F State.reset) (fun t => t.reg 3) = some 0x07 := by
  decide

/-- A29, and the draw is counted. -/
theorem test_rnd_mask_zero (r : Byte) : look (rndWith r 3 0x00 (withV [(3, 9)])) (fun t => t.reg 3) = some 0 := by
  simp [look, rndWith, writeReg]

/-! ## Control flow: rows of L2.2 -/

/-- B3: an odd target is legal. -/
theorem test_jp_odd : look (cycle 0x1333 State.reset) (fun t => t.pc) = some 0x333 := by decide

/-- B4. -/
theorem test_call :
    look (cycle 0x2300 State.reset) (fun t => (t.sp, t.slot 1, t.pc)) = some (1, 0x202, 0x300) := by decide

/-- B5. -/
theorem test_call_overflow :
    look (cycle 0x2300 { State.reset with sp := 24 }) (fun t => (t.status, t.sp, t.pc)) =
      some (.faulted ⟨.stackOverflow, some 0x2300, 0x200⟩, 24, 0x200) := by decide

/-- B6: no 2 is added on return, and the slot keeps its value. -/
theorem test_ret :
    look (cycle 0x00EE ({ State.reset with pc := 0x300 }.push 0x202)) (fun t => (t.sp, t.slot 1, t.pc)) =
      some (0, 0x202, 0x202) := by decide

/-- B7. -/
theorem test_ret_underflow :
    look (cycle 0x00EE { State.reset with pc := 0x300 }) (fun t => (t.status, t.pc)) =
      some (.faulted ⟨.stackUnderflow, some 0x00EE, 0x300⟩, 0x300) := by decide

/-- B9. -/
theorem test_jpV0_to_top : look (cycle 0xBF00 (withV [(0, 0xFF)])) (fun t => (t.pc, t.status)) =
      some (0xFFF, .running) := by decide

/-- B11. -/
theorem test_jpV0_out_of_bounds : look (cycle 0xBFFF (withV [(0, 0xFF)])) (fun t => (t.pc, t.status)) =
      some (0x200, .faulted ⟨.outOfBounds .jump 0x10FE, some 0xBFFF, 0x200⟩) := by decide

/-- B12, B13. -/
theorem test_seImm : (look (cycle 0x3342 (withV [(3, 0x42)])) (fun t => t.pc),
      look (cycle 0x3342 (withV [(3, 0x41)])) (fun t => t.pc)) = (some 0x204, some 0x202) := by decide

/-- B14, B15. -/
theorem test_sneImm : (look (cycle 0x4342 (withV [(3, 0x42)])) (fun t => t.pc),
      look (cycle 0x4342 (withV [(3, 0x41)])) (fun t => t.pc)) = (some 0x202, some 0x204) := by decide

/-- B16, B17. -/
theorem test_seReg : (look (cycle 0x5120 (withV [(1, 7), (2, 7)])) (fun t => t.pc),
      look (cycle 0x5120 (withV [(1, 7), (2, 8)])) (fun t => t.pc)) = (some 0x204, some 0x202) := by decide

/-- B19, B20. -/
theorem test_sneReg : (look (cycle 0x9120 (withV [(1, 7), (2, 8)])) (fun t => t.pc),
      look (cycle 0x9110 (withV [(1, 7)])) (fun t => t.pc)) = (some 0x204, some 0x202) := by decide

/-- B22: a taken skip past the end. -/
theorem test_skip_past_the_end :
    look (cycle 0x3000 { State.reset with pc := 0xFFE }) (fun t => t.pc) = some 0x1002 := by decide

/-! ## Index and memory: rows of L2.3 -/

/-- C1. -/
theorem test_ldI : look (cycle 0xA22A State.reset) (fun t => (t.i, t.pc)) = some (0x22A, 0x202) := by decide

/-- C3. -/
theorem test_addI_to_top :
    look (cycle 0xF21E { withV [(2, 0x0F)] with i := 0xFF0 }) (fun t => (t.i, t.status)) = some (0xFFF, .running) := by
  decide

/-- C4. -/
theorem test_addI_out_of_bounds :
    look (cycle 0xF21E { withV [(2, 0x10)] with i := 0xFF0 }) (fun t => (t.i, t.status)) =
      some (0xFF0, .faulted ⟨.outOfBounds .index 0x1000, some 0xF21E, 0x200⟩) := by decide

/-- C5, C6, with FONT_BASE = 0, under both readings of FONT_DIGIT_ADDR. -/
theorem test_fontAddr_of_a_digit :
    [fontAddrOf .unmasked 0 0x0A#8, fontAddrOf .masked 0 0x0A#8, fontAddrOf .unmasked 0 0x0F#8,
      fontAddrOf .masked 0 0x0F#8] = [0x032, 0x032, 0x04B, 0x04B] := by decide

/-- C7, with FONT_BASE = 0. -/
theorem test_fontAddr_above_fifteen :
    [fontAddrOf .unmasked 0 0x10#8, fontAddrOf .masked 0 0x10#8] = [0x050, 0x000] := by decide

/-- FX29 completes for every font base and reading. -/
theorem test_ldF_completes : look (cycle 0xF429 (withV [(4, 0x0A)])) (fun t => (t.pc, t.status)) =
      some (0x202, .running) := by decide

/-- C8. -/
theorem test_ldB : look (cycle 0xF533 { withV [(5, 215)] with i := 0x300 })
      (fun t => (t.mem.loadBytes 0x300 3, t.i)) = some ([2, 1, 5], 0x300) := by decide

/-- C11: a fault writes nothing. -/
theorem test_ldB_out_of_bounds : look (cycle 0xF533 { withV [(5, 7)] with i := 0xFFE })
      (fun t => (t.mem.loadBytes 0xFFE 2, t.status)) =
      some ([0, 0], .faulted ⟨.outOfBounds .write 0x1000, some 0xF533, 0x200⟩) := by decide

/-- C12. -/
theorem test_ldMemVx : look (cycle 0xF355 { withV [(0, 1), (1, 2), (2, 3), (3, 4), (4, 5)] with i := 0x400 })
      (fun t => (t.mem.loadBytes 0x400 5, t.i)) = some ([1, 2, 3, 4, 0], 0x400) := by decide

/-- C14. -/
theorem test_ldMemVx_out_of_bounds : look (cycle 0xF155 { withV [(0, 9), (1, 8)] with i := 0xFFF })
      (fun t => (t.mem.read 0xFFF, t.status)) =
      some (0, .faulted ⟨.outOfBounds .write 0x1000, some 0xF155, 0x200⟩) := by decide

/-- C15. -/
theorem test_ldVxMem : look (cycle 0xF365 (poke 0x400 [1, 2, 3, 4, 5] { withV [(4, 0x99)] with i := 0x400 }))
      (fun t => ([t.reg 0, t.reg 1, t.reg 2, t.reg 3, t.reg 4], t.i)) = some ([1, 2, 3, 4, 0x99], 0x400) := by
  decide

/-- C17. -/
theorem test_ldVxMem_out_of_bounds : look (cycle 0xFF65 { State.reset with i := 0xFF1 }) (fun t => t.status) =
      some (.faulted ⟨.outOfBounds .read 0x1000, some 0xFF65, 0x200⟩) := by decide

/-! ## Display: rows of L2.4 -/

/-- D11. -/
theorem test_cls : look (cycle 0x00E0 { State.reset with fb := Framebuffer.blank.flip (5, 7) })
      (fun t => (t.fb.get (5, 7), t.pc)) = some (false, 0x202) := by decide

/-- D3: a sprite wraps in its middle. -/
theorem test_drw_wraps : look (cycle 0xD011 (poke 0x300 [0xFF] { withV [(0, 60), (15, 1)] with i := 0x300 }))
      (fun t => ([t.fb.get (59, 0), t.fb.get (60, 0), t.fb.get (63, 0), t.fb.get (0, 0), t.fb.get (3, 0),
        t.fb.get (4, 0)], t.reg 15)) = some ([false, true, true, true, true, false], 0) := by decide

/-- D10: one pixel turned off is a collision. -/
theorem test_drw_collides :
    look (cycle 0xD011 (poke 0x300 [0xC0] { State.reset with i := 0x300, fb := Framebuffer.blank.flip (1, 0) }))
      (fun t => (t.fb.get (0, 0), t.fb.get (1, 0), t.reg 15)) = some (true, false, 1) := by decide

/-! ## Timers and keys: rows of L2.5 -/

/-- T1. -/
theorem test_ldVxDt : look (cycle 0xF307 { State.reset with dt := 0x3C }) (fun t => t.reg 3) = some 0x3C := by
  decide

/-- T2. -/
theorem test_ldDtVx : look (cycle 0xF315 (withV [(3, 0x3C)])) (fun t => t.dt) = some 0x3C := by decide

/-- T3. -/
theorem test_ldStVx : look (cycle 0xF318 (withV [(3, 5)])) (fun t => (t.st, toneOn t)) = some (5, some true) := by
  decide

/-- T5, T8: a byte above 15 never matches. -/
theorem test_skp : (look (cycle 0xE29E { withV [(2, 5)] with key := some 5 }) (fun t => t.pc),
      look (cycle 0xE29E { withV [(2, 0x15)] with key := some 5 }) (fun t => t.pc)) = (some 0x204, some 0x202) := by
  decide

/-- T9, T10. -/
theorem test_sknp : (look (cycle 0xE2A1 (withV [(2, 5)])) (fun t => t.pc),
      look (cycle 0xE2A1 { withV [(2, 5)] with key := some 5 }) (fun t => t.pc)) = (some 0x204, some 0x202) := by
  decide

/-- T12: the spin. -/
theorem test_ldVxK_waits : look (cycle 0xF10A (withV [(1, 0x99)])) (fun t => (t.reg 1, t.pc)) =
      some (0x99, 0x200) := by decide

/-- T13: the key is taken and not consumed. -/
theorem test_ldVxK_takes : look (cycle 0xF10A { State.reset with key := some 7 }) (fun t => (t.reg 1, t.pc, t.key)) =
      some (7, 0x202, some 7) := by decide

/-- T14, T16. -/
theorem test_tick : (look (tick State.reset) (fun t => (t.dt, t.st)),
      look (tick { State.reset with dt := 0xFF, st := 2 }) (fun t => (t.dt, t.st))) =
      (some (0, 0), some (0xFE, 1)) := by decide

/-- T18. -/
theorem test_setKey_none : look (setKey none { State.reset with key := some 3 }) (fun t => t.key) = some none := by
  decide

/-! ## Fetch, fault order and reset -/

/-- D5e: the last legal fetch. -/
theorem test_fetch_last : look (cycle 0x1200 { State.reset with pc := 0xFFE }) (fun t => t.pc) = some 0x200 := by
  decide

/-- D6e. -/
theorem test_fetch_out_of_bounds : look (step { State.reset with pc := 0xFFF }) (fun t => t.status) =
      some (.faulted ⟨.outOfBounds .fetch 0xFFF, none, 0xFFF⟩) := by decide

/-- R245: an empty ROM loads, and its first cycle is an unknown opcode (D1e). -/
theorem test_empty_rom : look (step State.reset) (fun t => t.status) =
      some (.faulted ⟨.unknownOpcode, some 0x0000, 0x200⟩) := by decide

/-- R241: the ROM lies unmodified at 0x200, and memory above it is zero. -/
theorem test_reset_loads_the_rom : look (resetWith [0x60, 0x05, 0x70, 0x03])
      (fun t => (t.mem.loadBytes 0x200 6, t.pc)) = some ([0x60, 0x05, 0x70, 0x03, 0, 0], 0x200) := by decide

/-- R58, R241: glyph A of the recommended table with FONT_BASE = 0x050. -/
theorem test_font_glyph_A :
    (List.range 5).map (fun k => initByteOf 0x50 Config.standardFontTable (0x50 + 5 * 10 + k)) =
      [0xF0, 0x90, 0xF0, 0x90, 0x90] := by decide

/-- The interface's reset and step agree with the decoder on a table word. -/
theorem test_withFetchWord_runs_the_word : fetchInstr (State.reset.withFetchWord 16 0xD125) =
      (match decodeTableWord 16 0xD125 with | some i => .instr i | none => .outOfBounds) := by decide

end Sys2Proof.Tests
end

