-- ==== Sys2Proof/Tests/Witness.lean ====
section
/-! SUPPORT. For every statement with hypotheses, a concrete state and operands that meet them, one for each clause, at a
boundary value where the clause has a range. -/

namespace Sys2Proof.Tests

open Sys2Proof Sys2Proof.Machine Sys2Proof.Claims

/-- A Faulted machine. -/
def halted : State := State.reset.setStatus (.faulted ⟨.stackUnderflow, some 0x00EE, 0x200⟩)

/-- The reset state with I set. -/
def withI (a : Word) (s : State) : State := s.setIndex a

/-! ## Encoding and the cycle -/

theorem witness_DecodeOfEncode : (Instr.drw 15 15 15).wf = true := rfl

theorem witness_EncodeOfDecode : decode 0x8FFE#16 = some (.shl 15 15) := by decide

theorem witness_DecodeAgrees_some : decode 0xFF65#16 = some (.ldVxMem 15) := by decide

theorem witness_DecodeAgrees_none : decode 0xFFFF#16 = none := by decide

theorem witness_DecodeAgrees_row : ∃ r ∈ opcodeTable, r.matches 0x00EE#16 = true :=
  ⟨⟨"RET", 0xFFFF, 0x00EE⟩, by decide, by decide⟩

theorem witness_Cycle_faulted : halted.status = .faulted ⟨.stackUnderflow, some 0x00EE, 0x200⟩ := rfl

theorem witness_Cycle_fetch : ∃ s : State, s.status = .running ∧ 0xFFE < s.pc.toNat :=
  ⟨State.reset.jumpTo 0xFFF, rfl, by decide⟩

/-- The last address an instruction can execute at, holding an unknown word. -/
theorem witness_Cycle_unknown : ∃ (s : State) (w : Word), s.status = .running ∧ s.pc.toNat ≤ 0xFFE ∧
    w.toNat = (s.mem.read s.pc.toNat).toNat * 256 + (s.mem.read (s.pc.toNat + 1)).toNat ∧ decode w = none :=
  ⟨State.reset.jumpTo 0xFFE, 0x0000, rfl, by decide, by decide, by decide⟩

theorem witness_Cycle_decoded : ∃ (s : State) (w : Word) (i : Instr), s.status = .running ∧ s.pc.toNat ≤ 0xFFE ∧
    w.toNat = (s.mem.read s.pc.toNat).toNat * 256 + (s.mem.read (s.pc.toNat + 1)).toNat ∧ decode w = some i :=
  ⟨(State.reset.jumpTo 0xFFE).withFetchWord 16 0x1200, 0x1200, .jp 0x200, rfl, by decide, by decide, by decide⟩

theorem witness_FaultedMachine : ∃ (s : State) (f : FaultInfo), s.status = .faulted f := ⟨halted, _, rfl⟩

theorem witness_FaultingStep : ∃ s t : State, step s = .next t ∧ t.status ≠ .running :=
  ⟨State.reset.jumpTo 0xFFF, _, rfl, by decide⟩

theorem witness_InstructionFaults_some :
    ownFault (.call 0x300) { State.reset with sp := 24 } = some .stackOverflow ∧
    ownFault .ret State.reset = some .stackUnderflow ∧
    ownFault (.jpV0 0xFFF) (withV [(0, 1)]) = some (.outOfBounds .jump 0x1000) ∧
    ownFault (.addI 2) (withI 0xFF0 (withV [(2, 0x10)])) = some (.outOfBounds .index 0x1000) ∧
    ownFault (.ldB 5) (withI 0xFFE State.reset) = some (.outOfBounds .write 0x1000) ∧
    ownFault (.ldMemVx 1) (withI 0xFFF State.reset) = some (.outOfBounds .write 0x1000) ∧
    ownFault (.ldVxMem 15) (withI 0xFF1 State.reset) = some (.outOfBounds .read 0x1000) ∧
    ownFault (.drw 0 1 2) (withI 0xFFF State.reset) = some (.outOfBounds .read 0x1000) := by decide

theorem witness_InstructionFaults_none :
    ownFault (.call 0x300) { State.reset with sp := 23 } = none ∧
    ownFault .ret { State.reset with sp := 1 } = none ∧
    ownFault (.jpV0 0xFFE) (withV [(0, 1)]) = none ∧
    ownFault (.addI 2) (withI 0xFF0 (withV [(2, 0x0F)])) = none ∧
    ownFault (.ldB 5) (withI 0xFFD State.reset) = none ∧
    ownFault (.ldMemVx 0) (withI 0xFFF State.reset) = none ∧
    ownFault (.ldVxMem 15) (withI 0xFF0 State.reset) = none ∧
    ownFault (.drw 0 1 1) (withI 0xFFF State.reset) = none := by decide

theorem witness_RunningMachine : State.reset.status = .running := rfl

theorem witness_RunningMachine_stop : ∃ f : Fault, step halted = .fault f := ⟨_, rfl⟩

/-! ## Invariants and memory -/

theorem reset_inv : State.reset.Inv where
  memWf := rfl
  pcBound := by decide
  indexBound := by decide
  slotBound := by decide
  slotZero := by decide
  statusWf := rfl

theorem witness_StepKeepsInvariant : ∃ s t : State, s.Inv ∧ step s = .next t := by
  refine ⟨State.reset.jumpTo 0x1002, _, ?_, rfl⟩
  exact ⟨rfl, by decide, by decide, by decide, by decide, rfl⟩

theorem witness_HostOperations : ∃ t u : State, ∃ v : State, State.reset.Inv ∧ tick State.reset = .next t ∧
    setKey (some 15) State.reset = .next u ∧ resetWith [0x12, 0x00] = .next v :=
  ⟨_, _, _, reset_inv, rfl, rfl, rfl⟩

theorem witness_CanonicalMemories : Memory.wf [(0x300, 1), (0xFFF, 2)] = true := by decide

/-! ## Registers and control transfer -/

theorem witness_flag_instructions : ∃ x : Reg, x ≠ regF ∧
    ((withV [(1, 0xFF), (2, 1)]).reg x).toNat + ((withV [(1, 0xFF), (2, 1)]).reg 2).toNat > 255 := ⟨1, by decide, by decide⟩

theorem witness_OnlySix : ∃ (i : Instr) (s t : State) (r : Reg), exec i s = .next t ∧ ¬ destReg i r ∧
    ¬ (r = regF ∧ setsFlag i) ∧ setsFlag i ∧ t.status = s.status ∧ ownFault i s = none :=
  ⟨.addReg 1 2, State.reset, _, 3, rfl, by simp [destReg], fun h => absurd h.1 (by decide), trivial, rfl, rfl⟩

theorem witness_Call : ({ State.reset with sp := 23 } : State).sp.val < 24 := by decide

theorem witness_Ret : 0 < ({ State.reset with sp := 1 } : State).sp.val := by decide

theorem witness_StackLimits : ({ State.reset with sp := 24 } : State).sp.val = 24 ∧ State.reset.sp.val = 0 := by decide

theorem witness_ReturnUndoesCall : ∃ s t u : State, s.sp.val < 24 ∧ exec (.call 0x300) s = .next t ∧ u.sp = t.sp ∧
    u.stack = t.stack := ⟨{ State.reset with sp := 23 }, _, _, by decide, rfl, rfl, rfl⟩

theorem witness_JumpSetsPc : (0x200#12).toNat = State.reset.pc.toNat ∧ (0xFFF#12).toNat = 0xFFF ∧
    State.reset.status = .running := by decide

theorem witness_JumpWithOffset : ∃ s : State, (0xFFE#12).toNat + (s.reg reg0).toNat ≤ 0xFFF ∧
    (0xFFF#12).toNat + (s.reg reg0).toNat > 0xFFF := ⟨withV [(0, 1)], by decide, by decide⟩

theorem witness_EverySetsPc : ∃ s : State, s.pc.toNat ≤ 0xFFE ∧ ownFault (.seImm 0 0) s = none ∧
    ownFault .ret s ≠ none := ⟨State.reset.jumpTo 0xFFE, by decide, rfl, by decide⟩

theorem witness_SelfJump : ∃ s : State, s.status = .running ∧ s.pc.toNat ≤ 0xFFE ∧ (0x200#12).toNat = s.pc.toNat ∧
    decode s.fetchWord = some (.jp 0x200) :=
  ⟨State.reset.withFetchWord 16 0x1200, rfl, by decide, by decide, by decide⟩

theorem witness_KeyWaitLoop : ∃ s : State, s.status = .running ∧ s.pc.toNat ≤ 0xFFE ∧ s.key = none ∧
    decode s.fetchWord = some (.ldVxK 1) := ⟨State.reset.withFetchWord 16 0xF10A, rfl, by decide, rfl, by decide⟩

/-! ## Index and memory -/

theorem witness_AddToIndex : ∃ s : State, s.i.toNat + (s.reg 1).toNat ≤ 0xFFF ∧ s.i.toNat + (s.reg 2).toNat > 0xFFF :=
  ⟨withI 0xFF0 (withV [(1, 0x0F), (2, 0x10)]), by decide, by decide⟩

theorem witness_FontAddress : ((withV [(4, 15)]).reg 4).toNat ≤ 15 := by decide

theorem witness_DecimalStore : (withI 0xFFD State.reset).i.toNat + 2 ≤ 0xFFF ∧
    (withI 0xFFE State.reset).i.toNat + 2 > 0xFFF := by decide

/-- The bounds of both block transfers. -/
theorem witness_BlockTransfers : (withI 0xFF0 State.reset).i.toNat + (15#4).toNat ≤ 0xFFF ∧
    (withI 0xFF1 State.reset).i.toNat + (15#4).toNat > 0xFFF := by decide

theorem witness_BlockLoadUndoes : ∃ s t u : State, s.i.toNat + (0#4).toNat ≤ 0xFFF ∧ exec (.ldMemVx 0) s = .next t ∧
    u.mem = t.mem ∧ u.i = t.i := ⟨withI 0xFFF State.reset, _, _, by decide, rfl, rfl, rfl⟩

theorem witness_StoreIsSeen : ∃ (s : State) (x : Reg), 1 ≤ x.toNat ∧ s.i.toNat = s.pc.toNat + 2 ∧
    s.i.toNat + x.toNat ≤ 0xFFF := ⟨withI 0x202 State.reset, 1, by decide, by decide, by decide⟩

/-! ## The framebuffer -/

/-- A sprite of one full row at 0x300. -/
def oneRow : State := poke 0x300 [0xFF] (withI 0x300 State.reset)

theorem witness_Draw_bounds : ((0#4).toNat = 0) ∧ (withI 0xFF1 State.reset).i.toNat + (15#4).toNat - 1 ≤ 0xFFF := by
  decide

theorem witness_Draw_covered : covers oneRow 60 31 1 (3, 31) := ⟨0, 7, by decide, by decide, by decide, by decide, by decide⟩

theorem witness_Draw_uncovered : ¬ covers oneRow 60 31 1 (4, 31) := by
  rintro ⟨r, k, -, hk, hx, -, -⟩
  have : (4 : Nat) = (60 + k) % 64 := hx
  omega

/-- A draw over a set pixel unsets it, so both collision clauses have a state: this one, and one with a blank screen. -/
theorem witness_Draw_collision : ∃ s t : State, exec (.drw 0 1 1) s = .next t ∧ s.fb.get (0, 0) = true ∧
    t.fb.get (0, 0) = false :=
  ⟨{ oneRow with fb := Framebuffer.blank.flip (0, 0) }, _, rfl, by decide, by decide⟩

theorem witness_Draw_no_collision : ∃ t : State, exec (.drw 0 1 1) oneRow = .next t ∧
    ∀ p, oneRow.fb.get p = true → t.fb.get p = true := by
  refine ⟨_, rfl, fun p h => ?_⟩
  rw [show oneRow.fb = Framebuffer.blank from rfl, get_blank] at h
  cases h

theorem witness_DrawOutOfBounds : 0 < (2#4).toNat ∧ (withI 0xFFF State.reset).i.toNat + (2#4).toNat - 1 > 0xFFF := by
  decide

theorem witness_DrawingTwice : ∃ t : State, (0#4 : Reg) ≠ regF ∧ (1#4 : Reg) ≠ regF ∧
    oneRow.i.toNat + (1#4).toNat - 1 ≤ 0xFFF ∧ exec (.drw 0 1 1) oneRow = .next t :=
  ⟨_, by decide, by decide, by decide, rfl⟩

/-! ## Timers, keys and the host's operations -/

theorem witness_KeySkips_pressed : ∃ s : State, pressed 2 s := ⟨{ withV [(2, 15)] with key := some 15 }, 15, rfl, by decide⟩

theorem witness_KeySkips_not_pressed : ¬ pressed 2 State.reset := by rintro ⟨k, h, -⟩; cases h

theorem witness_KeySkips_above_fifteen : ((withV [(2, 16)]).reg 2).toNat > 15 := by decide

theorem witness_KeyWait : State.reset.key = none ∧ ({ State.reset with key := some 15 } : State).key = some 15 :=
  ⟨rfl, rfl⟩

theorem witness_OnlyNamed : ∃ t : State, exec .cls State.reset = .next t := ⟨_, rfl⟩

theorem witness_DrawCount : ∃ t : State, (∀ x nn, Instr.cls ≠ .rnd x nn) ∧ exec .cls State.reset = .next t :=
  ⟨_, by simp, rfl⟩

theorem witness_Tick : ({ State.reset with dt := 1, st := 0xFF } : State).status = .running := rfl

theorem witness_ResetLoads : ([] : List Byte).length ≤ 3584 ∧ (List.replicate 3584 (0 : Byte)).length ≤ 3584 := by
  rw [List.length_replicate]
  decide

theorem witness_OversizedRom : (List.replicate 3585 (0 : Byte)).length > 3584 := by
  rw [List.length_replicate]
  decide

theorem witness_KeyConstant : ∃ t : State, runCycles 1 (State.reset.withFetchWord 16 0x1200) = .next t := ⟨_, rfl⟩

theorem witness_Frame : ∃ u : State, runCycles 1 (State.reset.withFetchWord 16 0x1200) = .next u ∧
    u.status = .running := ⟨_, rfl, rfl⟩

end Sys2Proof.Tests
end

section
/-! PROOFS. The drawn byte and the count of draws (spec/90_conflicts.md C7; log entry 2): the frame of an instruction
that writes one register, and every meaning but CXNN's commutes with a change of the count. -/

namespace Sys2Proof.Machine

open Sys2Proof.Claims

/-- The frame of `writeReg`: one register and PC, nothing else. -/
theorem wroteReg_advance_setReg (s : State) (x : Reg) (b : Byte) : WroteReg x s (s.setReg x b).advance :=
  have hregs : SameRegsBut x s (s.setReg x b).advance := fun _ hr => reg_setReg_of_ne s b hr
  have hstack : SameStack s (s.setReg x b).advance := ⟨rfl, fun _ => rfl⟩
  have hrun : SameRun s (s.setReg x b).advance := ⟨rfl, rfl, rfl⟩
  ⟨rfl, hregs, rfl, hstack, ⟨rfl, rfl⟩, fun _ => rfl, fun _ => rfl, hrun⟩

theorem reg_advance_setReg_self (s : State) (x : Reg) (b : Byte) : (s.setReg x b).advance.reg x = b :=
  reg_setReg_self s x b

/-- The same state with another count of draws. -/
def State.withDraws (n : Nat) (s : State) : State := { s with draws := n }

@[simp] theorem withDraws_key (n : Nat) (s : State) : (s.withDraws n).key = s.key := rfl

/-- Apply a change of the state to the next state of a result; a stop stays as it is. -/
def mapNext (f : State → State) : Result → Result
  | .next t => .next (f t)
  | .fault r => .fault r
  | .refused r => .refused r

@[simp] theorem mapNext_next (f : State → State) (t : State) : mapNext f (.next t) = .next (f t) := rfl

/-! ### The operations that branch commute with a change of the count -/

section
variable (n : Nat) (s : State)

theorem skipIf_withDraws (c : Bool) : (s.withDraws n).skipIf c = (s.skipIf c).withDraws n := by cases c <;> rfl

theorem raise_withDraws (kind : FaultKind) (w : Option Word) :
    (s.withDraws n).raise kind w = mapNext (State.withDraws n) (s.raise kind w) := rfl

theorem guardAddr_withDraws {site : Site} {a : Nat} {w : Word} {go go' : Result}
    (hgo : go' = mapNext (State.withDraws n) go) :
    (s.withDraws n).guardAddr site a w go' = mapNext (State.withDraws n) (s.guardAddr site a w go) := by
  rcases guardAddr_cases s site a w go with ⟨ha, e⟩ | ⟨ha, e⟩
  · rw [e, guardAddr_of_lt _ _ _ _ ha, raise_withDraws]
  · rw [e, guardAddr_of_le _ _ _ _ ha, hgo]

theorem guardAccess_withDraws {site : Site} {count : Nat} {w : Word} {go go' : Result}
    (hgo : go' = mapNext (State.withDraws n) go) :
    (s.withDraws n).guardAccess site count w go' = mapNext (State.withDraws n) (s.guardAccess site count w go) := by
  cases count with
  | zero => exact hgo
  | succ k => exact guardAddr_withDraws n s hgo

theorem execRet_withDraws : execRet (s.withDraws n) = mapNext (State.withDraws n) (execRet s) := by
  rcases execRet_cases s with ⟨h, e⟩ | ⟨h, e⟩
  · rw [e]; exact if_pos h
  · rw [e]; exact if_neg h

theorem execCall_withDraws (nnn : Addr12) :
    execCall nnn (s.withDraws n) = mapNext (State.withDraws n) (execCall nnn s) := by
  rcases execCall_cases s nnn with ⟨h, e⟩ | ⟨h, e⟩
  · rw [e]; exact if_pos h
  · rw [e]; exact if_neg h

theorem execLdVxK_withDraws (x : Reg) :
    execLdVxK x (s.withDraws n) = mapNext (State.withDraws n) (execLdVxK x s) := by
  simp only [execLdVxK, withDraws_key]
  cases s.key <;> rfl

/-- Every instruction but CXNN does the same whatever the count of draws, which it hands on: the operations that branch
do by the lemmas above, and a meaning without a branch never reads the count. -/
theorem exec_withDraws (i : Instr) (hi : ∀ x nn, i ≠ .rnd x nn) :
    exec i (s.withDraws n) = mapNext (State.withDraws n) (exec i s) := by
  cases i with
  | rnd x nn => exact absurd rfl (hi x nn)
  | ret => exact execRet_withDraws n s
  | call nnn => exact execCall_withDraws n s nnn
  | seImm | sneImm | seReg | sneReg | skp | sknp => exact congrArg Host.Outcome.next (skipIf_withDraws n s _)
  | jpV0 | addI => exact guardAddr_withDraws n s rfl
  | drw => exact guardAccess_withDraws n s rfl
  | ldB => exact guardAccess_withDraws n s (count := 3) rfl
  | ldMemVx x | ldVxMem x => exact guardAccess_withDraws n s (count := x.toNat + 1) rfl
  | ldVxK x => exact execLdVxK_withDraws n s x
  | _ => rfl

end

end Sys2Proof.Machine

namespace Sys2Proof.Claims

open Sys2Proof.Machine

/-- Settles O47: the change of the count goes through the whole instruction. -/
theorem drawCountAffectsOnlyRandom : Obligations.DrawCountAffectsOnlyRandom := by
  intro i s t n hi h
  calc exec i (s.withDraws n)
      _ = mapNext (State.withDraws n) (exec i s) := exec_withDraws n s i hi
      _ = .next (t.withDraws n) := by rw [h, mapNext_next]

/-- Settles O21: the frame of `writeReg`, from the state itself and from the state after the draw. -/
theorem randomByteIsMaskedDraw : Obligations.RandomByteIsMaskedDraw := by
  constructor
  · intro s x nn r
    exact ⟨_, rfl, reg_advance_setReg_self s x _, wroteReg_advance_setReg s x _⟩
  · intro s x nn
    obtain ⟨hpc, hregs, hi, hstack, htimers, hscreen, hmem, hkey, hstatus, hdraws⟩ :=
      wroteReg_advance_setReg s.countDraw x (s.drawn &&& nn)
    exact ⟨_, rfl, reg_advance_setReg_self _ x _, hdraws, hpc, hregs, hi, hstack, htimers, hscreen, hmem, hkey, hstatus⟩

end Sys2Proof.Claims
end

section
/-! PROOFS. Every instruction said once (spec/30_encoding.md R70, spec/60_exceptions.md R215): it takes its own fault, or
it completes, with an effect on the data and a next PC. What a completed instruction may change, the invariant of the
machine and the PC rule are facts about these two parts. -/

namespace Sys2Proof.Machine

open Sys2Proof.Claims

/-! ### The two parts of a completed instruction -/

/-- What a completed instruction does to everything but PC. -/
def effect (i : Instr) (s : State) : State :=
  match i with
  | .cls => s.setScreen Framebuffer.blank
  | .ret => s.pop
  | .call _ => s.push (s.pc + 2#16)
  | .ldImm x nn => s.setReg x nn
  | .addImm x nn => s.setReg x (addByte (s.reg x) nn)
  | .ldReg x y => s.setReg x (s.reg y)
  | .or x y => s.setReg x (s.reg x ||| s.reg y)
  | .and x y => s.setReg x (s.reg x &&& s.reg y)
  | .xor x y => s.setReg x (s.reg x ^^^ s.reg y)
  | .addReg x y => s.setResultAndFlag x (addByte (s.reg x) (s.reg y)) (carryOut (s.reg x) (s.reg y))
  | .sub x y => s.setResultAndFlag x (subByte (s.reg x) (s.reg y)) (noBorrow (s.reg x) (s.reg y))
  | .shr x _ => s.setResultAndFlag x (shrByte (s.reg x)) (lowBit (s.reg x))
  | .subn x y => s.setResultAndFlag x (subByte (s.reg y) (s.reg x)) (noBorrow (s.reg y) (s.reg x))
  | .shl x _ => s.setResultAndFlag x (shlByte (s.reg x)) (highBit (s.reg x))
  | .ldI nnn => s.setIndex (zext12 nnn)
  | .rnd x nn => s.countDraw.setReg x (s.drawn &&& nn)
  | .drw x y n =>
    s.drawSprite (s.reg x).toNat (s.reg y).toNat (s.mem.loadBytes (s.indexed 0) n.toNat)
  | .ldVxDt x => s.setReg x s.dt
  | .ldVxK x => s.setReg x (s.key.elim (s.reg x) keyCode)
  | .ldDtVx x => s.setDelay (s.reg x)
  | .ldStVx x => s.setSound (s.reg x)
  | .addI x => s.setIndex (BitVec.ofNat 16 (s.i.toNat + (s.reg x).toNat))
  | .ldF x => s.setIndex (fontAddr (s.reg x))
  | .ldB x => s.storeAtIndex (decimalDigits (s.reg x))
  | .ldMemVx x => s.storeAtIndex (s.regsUpTo x)
  | .ldVxMem x => s.loadRegs x
  | .jp _ | .seImm _ _ | .sneImm _ _ | .seReg _ _ | .sneReg _ _ | .jpV0 _ | .skp _ | .sknp _ => s

/-- Where PC goes when the instruction completes (R100). -/
def nextPc (i : Instr) (s : State) : Word :=
  match i with
  | .ret => s.slot s.sp
  | .jp nnn | .call nnn => zext12 nnn
  | .jpV0 nnn => BitVec.ofNat 16 (jumpSum nnn s)
  | .seImm x nn => (s.skipIf (decide (s.reg x = nn))).pc
  | .sneImm x nn => (s.skipIf (decide (s.reg x ≠ nn))).pc
  | .seReg x y => (s.skipIf (decide (s.reg x = s.reg y))).pc
  | .sneReg x y => (s.skipIf (decide (s.reg x ≠ s.reg y))).pc
  | .skp x => (s.skipIf (keyIs s.key (s.reg x))).pc
  | .sknp x => (s.skipIf (!keyIs s.key (s.reg x))).pc
  | .ldVxK _ => if s.key = none then s.pc else s.pc + 2#16
  | _ => s.pc + 2#16

/-- The state a completed instruction leaves. -/
def completed (i : Instr) (s : State) : State := (effect i s).jumpTo (nextPc i s)

theorem skipIf_eq_jumpTo (s : State) (c : Bool) : s.skipIf c = s.jumpTo (s.skipIf c).pc := by cases c <;> rfl

theorem jumpTo_pc_self (s : State) : s.jumpTo s.pc = s := rfl

theorem setReg_reg_self (s : State) (x : Reg) : s.setReg x (s.reg x) = s := by
  simp [State.setReg, State.reg]

theorem execLdVxK_eq_completed (s : State) (x : Reg) : execLdVxK x s = .next (completed (.ldVxK x) s) := by
  rcases execLdVxK_cases s x with ⟨hk, e⟩ | ⟨k, hk, e⟩
  · have : completed (.ldVxK x) s = s := by simp [completed, effect, nextPc, hk, setReg_reg_self, jumpTo_pc_self]
    rw [e, this]
  · have : completed (.ldVxK x) s = (s.setReg x (keyCode k)).advance := by
      simp [completed, effect, nextPc, hk, State.advance]
    rw [e, this]

/-- The two ways an instruction can end: its own fault, or its effect and next PC. -/
def FaultsOrCompletes (i : Instr) (s : State) : Prop :=
  (∃ k, ownFault i s = some k ∧ exec i s = .next (faultedAt s k (some (encode i)))) ∨
  (ownFault i s = none ∧ exec i s = .next (completed i s))

theorem faultsOrCompletes_of_ite {i : Instr} {s : State} {c : Prop} [Decidable c] {k : FaultKind}
    (hk : ownFault i s = if c then some k else none)
    (h : (c ∧ exec i s = s.raise k (some (encode i))) ∨ (¬ c ∧ exec i s = .next (completed i s))) :
    FaultsOrCompletes i s := by
  rcases h with ⟨hc, e⟩ | ⟨hc, e⟩
  · exact .inl ⟨k, hk.trans (if_pos hc), e⟩
  · exact .inr ⟨hk.trans (if_neg hc), e⟩

/-- The one inversion of `exec`: an instruction takes its own fault, or completes. -/
theorem exec_faultsOrCompletes (i : Instr) (s : State) : FaultsOrCompletes i s := by
  cases i with
  | ret => exact faultsOrCompletes_of_ite (if_congr (Fin.val_inj (b := 0)) rfl rfl) (execRet_cases s)
  | call nnn => exact faultsOrCompletes_of_ite (if_congr (Fin.val_inj (b := 24)) rfl rfl) (execCall_cases s nnn)
  | jpV0 nnn => exact faultsOrCompletes_of_ite rfl ((execJpV0_cases s nnn).imp_right (.imp_left Nat.not_lt.mpr))
  | addI x => exact faultsOrCompletes_of_ite rfl ((execAddI_cases s x).imp_right (.imp_left Nat.not_lt.mpr))
  | ldB x => exact faultsOrCompletes_of_ite rfl ((execLdB_cases s x).imp_right (.imp_left Nat.not_lt.mpr))
  | ldMemVx x => exact faultsOrCompletes_of_ite rfl ((execLdMemVx_cases s x).imp_right (.imp_left Nat.not_lt.mpr))
  | ldVxMem x => exact faultsOrCompletes_of_ite rfl ((execLdVxMem_cases s x).imp_right (.imp_left Nat.not_lt.mpr))
  | drw x y n =>
    rcases execDrw_cases s x y n with ⟨h0, h, e⟩ | ⟨h, e⟩
    · exact .inl ⟨_, if_pos ⟨h0, h⟩, e⟩
    · exact .inr ⟨if_neg (by omega), e⟩
  | seImm | sneImm | seReg | sneReg | skp | sknp => exact .inr ⟨rfl, congrArg _ (skipIf_eq_jumpTo s _)⟩
  | ldVxK x => exact .inr ⟨rfl, execLdVxK_eq_completed s x⟩
  | _ => exact .inr ⟨rfl, rfl⟩

section
variable {i : Instr} {s : State}

theorem exec_of_ownFault {k : FaultKind} (h : ownFault i s = some k) :
    exec i s = .next (faultedAt s k (some (encode i))) := by
  rcases exec_faultsOrCompletes i s with ⟨k', h', e⟩ | ⟨h', _⟩
  · rw [e, Option.some.inj (h'.symm.trans h)]
  · cases h'.symm.trans h

theorem exec_of_no_fault (h : ownFault i s = none) : exec i s = .next (completed i s) := by
  rcases exec_faultsOrCompletes i s with ⟨k, h', _⟩ | ⟨_, e⟩
  · cases h'.symm.trans h
  · exact e

theorem exec_next_cases {t : State} (h : exec i s = .next t) :
    (∃ k, ownFault i s = some k ∧ t = faultedAt s k (some (encode i))) ∨
    (ownFault i s = none ∧ t = completed i s) := by
  rcases exec_faultsOrCompletes i s with ⟨k, hk, e⟩ | ⟨hn, e⟩
  · exact .inl ⟨k, hk, Host.Outcome.next.inj (h.symm.trans e)⟩
  · exact .inr ⟨hn, Host.Outcome.next.inj (h.symm.trans e)⟩

end

/-! ### What the effect leaves unchanged, one piece of state at a time -/

section
variable {i : Instr} (s : State)

theorem effect_key : (effect i s).key = s.key := by cases i <;> rfl

theorem effect_status : (effect i s).status = s.status := by cases i <;> rfl

theorem effect_dt (h : ∀ x, i ≠ .ldDtVx x) : (effect i s).dt = s.dt := by
  cases i with
  | ldDtVx x => exact absurd rfl (h x)
  | _ => rfl

theorem effect_st (h : ∀ x, i ≠ .ldStVx x) : (effect i s).st = s.st := by
  cases i with
  | ldStVx x => exact absurd rfl (h x)
  | _ => rfl

theorem effect_sp_stack (hr : i ≠ .ret) (hc : ∀ n, i ≠ .call n) :
    (effect i s).sp = s.sp ∧ (effect i s).stack = s.stack := by
  cases i with
  | ret => exact absurd rfl hr
  | call n => exact absurd rfl (hc n)
  | _ => exact ⟨rfl, rfl⟩

theorem effect_fb (hc : i ≠ .cls) (hd : ∀ x y n, i ≠ .drw x y n) : (effect i s).fb = s.fb := by
  cases i with
  | cls => exact absurd rfl hc
  | drw x y n => exact absurd rfl (hd x y n)
  | _ => rfl

theorem effect_mem (hb : ∀ x, i ≠ .ldB x) (hm : ∀ x, i ≠ .ldMemVx x) : (effect i s).mem = s.mem := by
  cases i with
  | ldB x => exact absurd rfl (hb x)
  | ldMemVx x => exact absurd rfl (hm x)
  | _ => rfl

theorem effect_i (hl : ∀ n, i ≠ .ldI n) (ha : ∀ x, i ≠ .addI x) (hf : ∀ x, i ≠ .ldF x) : (effect i s).i = s.i := by
  cases i with
  | ldI n => exact absurd rfl (hl n)
  | addI x => exact absurd rfl (ha x)
  | ldF x => exact absurd rfl (hf x)
  | _ => rfl

theorem effect_draws (h : ∀ x nn, i ≠ .rnd x nn) : (effect i s).draws = s.draws := by
  cases i with
  | rnd x nn => exact absurd rfl (h x nn)
  | _ => rfl

/-! ### Registers and the flag (R23) -/

theorem effect_reg {r : Reg} (hd : ¬ destReg i r) (hf : ¬ (r = regF ∧ setsFlag i)) :
    (effect i s).reg r = s.reg r := by
  cases i with
  | ldImm | addImm | ldReg | or | and | xor | rnd | ldVxDt | ldVxK => exact reg_setReg_of_ne _ _ hd
  | addReg | sub | shr | subn | shl => exact reg_setResultAndFlag_of_ne _ _ _ hd fun h => hf ⟨h, trivial⟩
  | drw => exact reg_drawSprite_of_ne _ _ _ _ fun h => hf ⟨h, trivial⟩
  | ldVxMem x => exact (reg_loadRegs s x r).trans (if_neg hd)
  | _ => rfl

/-- After a flag instruction VF holds a flag. -/
theorem effect_regF (h : setsFlag i) : ∃ b, (effect i s).reg regF = flagByte b := by
  cases i with
  | addReg | sub | shr | subn | shl => exact ⟨_, reg_setResultAndFlag_flag _ _ _ _⟩
  | drw => exact ⟨_, reg_drawSprite_flag _ _ _ _⟩
  | _ => exact False.elim h

theorem flagByte_eq_zero_or_one (b : Bool) : flagByte b = 0 ∨ flagByte b = 1 := by
  cases b with
  | false => exact .inl rfl
  | true => exact .inr rfl

end

/-! ### The next PC as an exact number (R25, R100) -/

section
variable {s : State}

theorem pc_add_toNat (hpc : s.pc.toNat ≤ 0xFFE) {d : Nat} (hd : d ≤ 4) :
    (s.pc + BitVec.ofNat 16 d).toNat = s.pc.toNat + d := by
  rw [BitVec.toNat_add, BitVec.toNat_ofNat]
  omega

theorem skipIf_pc_toNat (hpc : s.pc.toNat ≤ 0xFFE) (c : Bool) :
    (s.skipIf c).pc.toNat = if c then s.pc.toNat + 4 else s.pc.toNat + 2 := by
  cases c with
  | false => exact pc_add_toNat hpc (by decide)
  | true => exact pc_add_toNat hpc (by decide)

theorem keyIs_iff_pressed (x : Reg) : keyIs s.key (s.reg x) = true ↔ pressed x s := by
  unfold pressed
  cases s.key with
  | none => simp [keyIs]
  | some k =>
    have hk : k.val % 256 = k.val := Nat.mod_eq_of_lt (by omega)
    simp [keyIs, keyCode, ← BitVec.toNat_inj, hk]

/-- A completed instruction goes where its rule says, without wrapping. -/
theorem nextPc_pcIs {i : Instr} (hpc : s.pc.toNat ≤ 0xFFE) (hn : ownFault i s = none) :
    pcIs i s (nextPc i s).toNat := by
  cases i with
  | ret => rfl
  | jp nnn | call nnn => exact zext12_toNat nnn
  | jpV0 nnn =>
    have hsum : jumpSum nnn s ≤ 0xFFF := by simpa [ownFault] using hn
    exact Nat.mod_eq_of_lt (by omega)
  | seImm | sneImm | seReg | sneReg => simp [pcIs, nextPc, skipIf_pc_toNat hpc]
  | skp x | sknp x =>
    by_cases hp : pressed x s
    · simp [pcIs, nextPc, skipIf_pc_toNat hpc, hp, (keyIs_iff_pressed x).mpr hp]
    · simp [pcIs, nextPc, skipIf_pc_toNat hpc, hp, mt (keyIs_iff_pressed x).mp hp]
  | ldVxK x =>
    simp only [pcIs, nextPc, apply_ite BitVec.toNat, pc_add_toNat hpc (d := 2) (by decide)]
  | _ => exact pc_add_toNat hpc (by decide)

/-- The largest PC an instruction can leave, with slots of at most 0x1000: that of a taken skip at 0xFFE. -/
theorem pcIs_le {i : Instr} {p : Nat} (hpc : s.pc.toNat ≤ 0xFFE) (hslot : ∀ k, (s.slot k).toNat ≤ 0x1000)
    (hn : ownFault i s = none) (h : pcIs i s p) : p ≤ 0x1002 := by
  cases i with
  | ret => have := hslot s.sp; simp only [pcIs] at h; omega
  | jp nnn | call nnn => have := nnn.isLt; simp only [pcIs] at h; omega
  | jpV0 nnn =>
    have hsum : jumpSum nnn s ≤ 0xFFF := by simpa [ownFault] using hn
    simp only [pcIs] at h
    omega
  | seImm | sneImm | seReg | sneReg | ldVxK => simp only [pcIs] at h; split at h <;> omega
  | skp | sknp => simp only [pcIs] at h; omega
  | _ => simp only [pcIs] at h; omega

end

/-! ### The invariant -/

/-- The one slot an instruction can write: a CALL writes PC + 2 above SP (R28, R103). -/
theorem effect_slot_cases (i : Instr) (s : State) (k : Fin Config.stackSlots) :
    (effect i s).slot k = s.slot k ∨
    ((∃ n, i = .call n) ∧ k = s.sp + 1 ∧ (effect i s).slot k = s.pc + 2#16) := by
  cases i with
  | call n =>
    by_cases hk : k = s.sp + 1
    · exact .inr ⟨⟨n, rfl⟩, hk, (slot_push s _ k).trans (if_pos hk)⟩
    · exact .inl ((slot_push s _ k).trans (if_neg hk))
  | _ => exact .inl rfl

section
variable {i : Instr} {s : State}

theorem wf_outOfBounds {site : Site} (hs : site ≠ .fetch) {a : Nat} (ha : 0xFFF < a) (w pc : Word) :
    (FaultInfo.mk (.outOfBounds site a) (some w) pc).wf = true := by
  cases site with
  | fetch => exact absurd rfl hs
  | _ => simpa [FaultInfo.wf] using ha

/-- What an instruction's own fault records has the shape of R211. -/
theorem wf_of_ownFault {k : FaultKind} (h : ownFault i s = some k) (w pc : Word) :
    (FaultInfo.mk k (some w) pc).wf = true := by
  cases i with
  | ret | call =>
    obtain ⟨_, hk⟩ := Option.ite_none_right_eq_some.mp h
    cases hk
    rfl
  | jpV0 | addI | ldB | ldMemVx | ldVxMem =>
    obtain ⟨ha, hk⟩ := Option.ite_none_right_eq_some.mp h
    cases hk
    exact wf_outOfBounds (by decide) ha w pc
  | drw =>
    obtain ⟨⟨_, ha⟩, hk⟩ := Option.ite_none_right_eq_some.mp h
    cases hk
    exact wf_outOfBounds (by decide) ha w pc
  | _ => cases h

/-- A fault of the right shape keeps the invariant: it writes the status only (R213). -/
theorem inv_faultedAt (hs : s.Inv) {k : FaultKind} {o : Option Word} (hwf : (FaultInfo.mk k o s.pc).wf = true) :
    (faultedAt s k o).Inv :=
  { hs with statusWf := by simpa [State.statusWf, faultedAt] using hwf }

theorem effect_mem_wf (hn : ownFault i s = none) (hs : s.mem.wf = true) : (effect i s).mem.wf = true := by
  cases i with
  | ldB x =>
    have hi : s.i.toNat + 2 ≤ 0xFFF := by simpa [ownFault] using hn
    have hlen : (decimalDigits (s.reg x)).length = 3 := rfl
    exact wf_storeBytes (by simp only [State.indexed, hlen, Config.memSize]; omega) hs
  | ldMemVx x =>
    have hi : s.i.toNat + x.toNat ≤ 0xFFF := by simpa [ownFault] using hn
    exact wf_storeBytes (by simp only [State.indexed, length_regsUpTo, Config.memSize]; omega) hs
  | _ => exact hs

theorem effect_i_le (hn : ownFault i s = none) (hs : s.i.toNat ≤ 0xFFF) : (effect i s).i.toNat ≤ 0xFFF := by
  cases i with
  | ldI nnn => exact zext12_le nnn
  | addI x =>
    have hsum : s.i.toNat + (s.reg x).toNat ≤ 0xFFF := by simpa [ownFault] using hn
    exact (Nat.mod_le _ _).trans hsum
  | ldF x => exact (fontAddr_le _).trans (by decide)
  | _ => exact hs

theorem effect_slot_le (hpc : s.pc.toNat ≤ 0xFFE) (hs : ∀ k, (s.slot k).toNat ≤ 0x1000)
    (k : Fin Config.stackSlots) : ((effect i s).slot k).toNat ≤ 0x1000 := by
  rcases effect_slot_cases i s k with e | ⟨_, _, e⟩
  · rw [e]; exact hs k
  · rw [e, pc_add_toNat hpc (by decide)]; omega

/-- A CALL that completes leaves S[0]: it writes above SP, which is not the last slot. -/
theorem effect_slot_zero (hn : ownFault i s = none) : (effect i s).slot 0 = s.slot 0 := by
  rcases effect_slot_cases i s 0 with e | ⟨⟨n, rfl⟩, hk, _⟩
  · exact e
  · have hsp : s.sp.val ≠ 24 := by simpa [ownFault] using hn
    have := congrArg Fin.val hk
    simp only [Fin.val_add, Config.stackSlots] at this
    omega

/-- An instruction that completes keeps the invariant of a running machine. -/
theorem inv_completed (hs : s.Inv) (hrun : s.status = .running) (hpc : s.pc.toNat ≤ 0xFFE)
    (hn : ownFault i s = none) : (completed i s).Inv where
  memWf := effect_mem_wf hn hs.memWf
  pcBound := pcIs_le hpc hs.slotBound hn (nextPc_pcIs hpc hn)
  indexBound := effect_i_le hn hs.indexBound
  slotBound := effect_slot_le hpc hs.slotBound
  slotZero := (effect_slot_zero hn).trans hs.slotZero
  statusWf := by
    have : (completed i s).status = .running := (effect_status s).trans hrun
    simp [State.statusWf, this]

end

end Sys2Proof.Machine

namespace Sys2Proof.Claims

open Sys2Proof.Machine

/-- Settles O12: a step is a fetch fault, an unknown opcode or an instruction, which takes its own fault or completes;
each of the four keeps the invariant. -/
theorem stepKeepsInvariant : Obligations.StepKeepsInvariant := by
  intro s t hs h
  obtain ⟨hrun, ⟨hpc, e⟩ | ⟨_, _, e⟩ | ⟨hpc, i, _, e⟩⟩ := step_cases h
  · obtain rfl := Host.Outcome.next.inj e
    exact inv_faultedAt hs (by simp [FaultInfo.wf, Config.topAddr]; omega)
  · obtain rfl := Host.Outcome.next.inj e
    exact inv_faultedAt hs rfl
  · rcases exec_next_cases e with ⟨k, hk, rfl⟩ | ⟨hn, rfl⟩
    · exact inv_faultedAt hs (wf_of_ownFault hk _ _)
    · exact inv_completed hs hrun hpc hn

/-- Settles O22: a fault writes no register, and a completed instruction only those of its effect. -/
theorem onlySixInstructionsWriteTheFlag : Obligations.OnlySixInstructionsWriteTheFlag := by
  intro i s t h
  rcases exec_next_cases h with ⟨k, hk, rfl⟩ | ⟨_, rfl⟩
  · refine ⟨fun _ _ _ => rfl, fun _ _ hn => ?_⟩
    cases hk.symm.trans hn
  · refine ⟨fun r => effect_reg s, fun hf _ _ => ?_⟩
    obtain ⟨b, hb⟩ := effect_regF s hf
    exact hb ▸ flagByte_eq_zero_or_one b

/-- Settles O24: neither instruction faults inside the bounds, and its effect is the push or the pop. -/
theorem callPushesAndReturnPops : Obligations.CallPushesAndReturnPops := by
  constructor
  · intro s nnn hsp
    have hn : ownFault (.call nnn) s = none := if_neg (by omega)
    have hsp1 : (s.sp + 1).val = s.sp.val + 1 := Fin.val_add_one_of_lt (Fin.lt_def.mpr hsp)
    exact ⟨_, exec_of_no_fault hn, hsp1, (slot_push s _ _).trans (if_pos rfl),
      fun k hk => (slot_push s _ k).trans (if_neg hk), zext12_toNat nnn,
      fun _ => rfl, rfl, ⟨rfl, rfl⟩, fun _ => rfl, fun _ => rfl, rfl, rfl, rfl⟩
  · intro s hsp
    have hn : ownFault .ret s = none := if_neg (by omega)
    have hsp1 : (s.sp - 1).val = s.sp.val - 1 := Fin.sub_val_of_le (Fin.le_def.mpr (Nat.succ_le_of_lt hsp))
    exact ⟨_, exec_of_no_fault hn, hsp1, rfl, fun _ => rfl,
      fun _ => rfl, rfl, ⟨rfl, rfl⟩, fun _ => rfl, fun _ => rfl, rfl, rfl, rfl⟩

/-- Settles O29: a completed instruction goes to `nextPc`, and a fault writes the status only. -/
theorem everyInstructionSetsPc : Obligations.EveryInstructionSetsPc := by
  intro i s hpc
  constructor
  · intro hn
    exact ⟨_, exec_of_no_fault hn, nextPc_pcIs hpc hn⟩
  · intro hf
    obtain ⟨k, hk⟩ := Option.ne_none_iff_exists'.mp hf
    exact ⟨_, exec_of_ownFault hk, rfl⟩

/-- Settles O46: a fault writes the status only, and the effect has a frame for each piece of state. -/
theorem onlyNamedInstructionsWriteEachState : Obligations.OnlyNamedInstructionsWriteEachState := by
  intro i s t h
  rcases exec_next_cases h with ⟨k, _, rfl⟩ | ⟨_, rfl⟩
  · exact ⟨rfl, fun _ => rfl, fun _ => rfl, fun _ _ => ⟨rfl, rfl⟩, fun _ _ => rfl, fun _ _ => rfl,
      fun _ _ _ => rfl, fun _ => rfl⟩
  · exact ⟨effect_key s, effect_dt s, effect_st s, effect_sp_stack s, effect_fb s, effect_mem s, effect_i s,
      effect_draws s⟩

/-- Settles O25: the two bounds of SP are the fault conditions of CALL and RET. -/
theorem stackLimitsFault : Obligations.StackLimitsFault := by
  constructor
  · intro s nnn hsp
    exact exec_of_ownFault (if_pos hsp)
  · intro s hsp
    exact exec_of_ownFault (i := .ret) (if_pos hsp)

end Sys2Proof.Claims
end

section
/-! PROOFS. Memory (spec/20_memory.md): the laws of plain storage (R52, R56), the canonical form as a normal form (log
entry 6), and a block store read back byte by byte, by the program or by the next fetch (R63, R247). -/

namespace Sys2Proof.Machine

/-! ### Blocks of bytes -/

theorem loadBytes_storeBytes (m : Memory) (a : Nat) (bs : List Byte) :
    (m.storeBytes a bs).loadBytes a bs.length = bs := by
  apply List.ext_getElem (length_loadBytes _ _ _)
  intro k _ hk
  rw [getElem_loadBytes, read_storeBytes, if_pos (Nat.le_add_right a k), Nat.add_sub_cancel_left,
    List.getD_eq_getElem _ _ hk]

/-- After a block store from I on, the register stored at `I + r` is read there. -/
theorem read_storeAtIndex_regsUpTo (s : State) {x r : Reg} (hr : r.toNat ≤ x.toNat) :
    (s.storeAtIndex (s.regsUpTo x)).mem.read (s.indexed r.toNat) = s.reg r := by
  have hlen : r.toNat < (s.regsUpTo x).length := by rw [length_regsUpTo]; omega
  have hoff : s.indexed r.toNat - s.indexed 0 = r.toNat := Nat.add_sub_cancel_left _ _
  have hge : s.indexed 0 ≤ s.indexed r.toNat := Nat.le_add_right _ _
  rw [storeAtIndex_mem, read_storeBytes, if_pos hge, hoff, List.getD_eq_getElem _ _ hlen,
    getElem_regsUpTo]

/-! ### What the canonical form says of the entries -/

theorem find_cons (a b : Nat) (u : Byte) (m : Memory) :
    Memory.find a ((b, u) :: m) = if b = a then some u else Memory.find a m := rfl

section
variable {lo a b : Nat} {u v : Byte} {m : Memory}

theorem wfFrom_cons :
    Memory.wfFrom lo ((a, v) :: m) = true ↔
      lo ≤ a ∧ a < Config.memSize ∧ v ≠ initByte a ∧ Memory.wfFrom (a + 1) m = true := by
  simp only [Memory.wfFrom, Bool.and_eq_true, decide_eq_true_eq, and_assoc]

theorem le_of_find_eq_some (hm : Memory.wfFrom lo m = true) (h : Memory.find a m = some v) : lo ≤ a := by
  induction m generalizing lo with
  | nil => cases h
  | cons e m ih =>
    obtain ⟨b, u⟩ := e
    obtain ⟨hlo, -, -, htail⟩ := wfFrom_cons.mp hm
    rw [find_cons] at h
    split at h
    · next hb => exact hb ▸ hlo
    · have := ih htail h
      omega

theorem find_eq_none_of_lt (hm : Memory.wfFrom lo m = true) (ha : a < lo) : Memory.find a m = none :=
  Option.eq_none_iff_forall_ne_some.mpr fun _ h => absurd (le_of_find_eq_some hm h) (Nat.not_le.mpr ha)

/-- The head of a canonical memory has its lowest address. -/
theorem head_le_of_find_eq_some (hm : Memory.wfFrom lo ((b, u) :: m) = true)
    (h : Memory.find a ((b, u) :: m) = some v) : b ≤ a := by
  obtain ⟨-, hb, hu, htail⟩ := wfFrom_cons.mp hm
  exact le_of_find_eq_some (wfFrom_cons.mpr ⟨le_refl b, hb, hu, htail⟩) h

theorem ne_initByte_of_find_eq_some (hm : Memory.wfFrom lo m = true) (h : Memory.find a m = some v) :
    v ≠ initByte a := by
  induction m generalizing lo with
  | nil => cases h
  | cons e m ih =>
    obtain ⟨b, u⟩ := e
    obtain ⟨-, -, hu, htail⟩ := wfFrom_cons.mp hm
    rw [find_cons] at h
    split at h
    · next hb =>
      obtain rfl := Option.some.inj h
      exact hb ▸ hu
    · exact ih htail h

/-- In canonical form the entries are what the reads say: an address is listed exactly when it does not read as it does
after reset. -/
theorem find_eq_of_wfFrom (hm : Memory.wfFrom lo m = true) (a : Nat) :
    Memory.find a m = if m.read a = initByte a then none else some (m.read a) := by
  cases h : Memory.find a m with
  | none =>
    have hread : m.read a = initByte a := by rw [Memory.read, h]; rfl
    rw [if_pos hread]
  | some v =>
    have hread : m.read a = v := by rw [Memory.read, h]; rfl
    rw [if_neg (hread ▸ ne_initByte_of_find_eq_some hm h), hread]

end

/-- The entries determine a canonical memory: two of them start with the same entry, and their tails list the same. -/
theorem eq_of_find_eq {lo : Nat} {m m' : Memory} (hm : Memory.wfFrom lo m = true) (hm' : Memory.wfFrom lo m' = true)
    (h : ∀ a, Memory.find a m = Memory.find a m') : m = m' := by
  induction m generalizing lo m' with
  | nil =>
    cases m' with
    | nil => rfl
    | cons e' m' => cases (h e'.1).trans (if_pos rfl)
  | cons e m ih =>
    obtain ⟨a, v⟩ := e
    have hv : Memory.find a ((a, v) :: m) = some v := if_pos rfl
    cases m' with
    | nil => cases hv.symm.trans (h a)
    | cons e' m' =>
      obtain ⟨b, u⟩ := e'
      have hu : Memory.find b ((b, u) :: m') = some u := if_pos rfl
      obtain rfl : a = b := Nat.le_antisymm
        (head_le_of_find_eq_some hm ((h b).trans hu)) (head_le_of_find_eq_some hm' ((h a).symm.trans hv))
      obtain rfl : v = u := Option.some.inj (hv.symm.trans ((h a).trans hu))
      obtain ⟨-, -, -, htail⟩ := wfFrom_cons.mp hm
      obtain ⟨-, -, -, htail'⟩ := wfFrom_cons.mp hm'
      have hfind : ∀ c, Memory.find c m = Memory.find c m' := by
        intro c
        by_cases hc : a = c
        · have hlt : c < a + 1 := by omega
          rw [find_eq_none_of_lt htail hlt, find_eq_none_of_lt htail' hlt]
        · simpa only [find_cons, if_neg hc] using h c
      rw [ih htail htail' hfind]

end Sys2Proof.Machine

namespace Sys2Proof.Claims

open Sys2Proof.Machine

/-- Settles O14: the law of one write, and its consequence for a block, byte by byte. -/
theorem memoryIsPlainStorage : Obligations.MemoryIsPlainStorage :=
  ⟨read_write, loadBytes_storeBytes⟩

/-- Settles O15: the reads determine the entries, and the entries determine the list. -/
theorem canonicalMemoriesThatReadAlikeAreEqual : Obligations.CanonicalMemoriesThatReadAlikeAreEqual := by
  intro m m' hm hm' h
  have hfind : ∀ a, Memory.find a m = Memory.find a m' := fun a => by
    rw [find_eq_of_wfFrom hm, find_eq_of_wfFrom hm', h a]
  exact eq_of_find_eq hm hm' hfind

/-- Settles O38: the next PC is I, so the fetched bytes are those of V0 and V1. -/
theorem storeIsSeenByNextFetch : Obligations.StoreIsSeenByNextFetch := by
  intro s x hx hi hle
  have hn : ownFault (.ldMemVx x) s = none := if_neg (by omega)
  have hpc : (completed (.ldMemVx x) s).pc.toNat = s.pc.toNat + 2 := nextPc_pcIs (by omega) hn
  have hread : ∀ r : Reg, r.toNat ≤ x.toNat →
      (completed (.ldMemVx x) s).mem.read (s.pc.toNat + 2 + r.toNat) = s.reg r := fun r hr =>
    hi ▸ read_storeAtIndex_regsUpTo s hr
  refine ⟨_, exec_of_no_fault hn, hpc, ?_⟩
  rw [State.fetchWord, hpc, Memory.wordAt, wordOfBytes_toNat]
  exact congrArg₂ (fun b c : Byte => b.toNat * 256 + c.toNat) (hread 0#4 (Nat.zero_le _)) (hread 1#4 hx)

end Sys2Proof.Claims
end

section
/-! PROOFS. The decoder and the encoder (spec/30_encoding.md R75, R76, R81): a packed word gives its fields back, a word
is packed from its fields, so the two are inverse to each other; the decoder accepts a word by the bits that the masks
of the opcode table name; and the words that decode are counted as the instructions there are. -/

namespace Sys2Proof

/-! ### The fields of a packed word, and a word packed from its fields -/

section
variable (op : BitVec 4) (x y : Reg) (n : BitVec 4) (nn : Byte) (nnn : Addr12)

@[simp] theorem opField_packNNN : opField (packNNN op nnn) = op :=
  BitVec.eq_of_toNat_eq (by rw [opField_toNat, packNNN_toNat]; omega)

@[simp] theorem nnnField_packNNN : nnnField (packNNN op nnn) = nnn :=
  BitVec.eq_of_toNat_eq (by rw [nnnField_toNat, packNNN_toNat]; omega)

@[simp] theorem opField_packXNN : opField (packXNN op x nn) = op :=
  BitVec.eq_of_toNat_eq (by rw [opField_toNat, packXNN_toNat]; omega)

@[simp] theorem xField_packXNN : xField (packXNN op x nn) = x :=
  BitVec.eq_of_toNat_eq (by rw [xField_toNat, packXNN_toNat]; omega)

@[simp] theorem nnField_packXNN : nnField (packXNN op x nn) = nn :=
  BitVec.eq_of_toNat_eq (by rw [nnField_toNat, packXNN_toNat]; omega)

@[simp] theorem opField_packXYN : opField (packXYN op x y n) = op :=
  BitVec.eq_of_toNat_eq (by rw [opField_toNat, packXYN_toNat]; omega)

@[simp] theorem xField_packXYN : xField (packXYN op x y n) = x :=
  BitVec.eq_of_toNat_eq (by rw [xField_toNat, packXYN_toNat]; omega)

@[simp] theorem yField_packXYN : yField (packXYN op x y n) = y :=
  BitVec.eq_of_toNat_eq (by rw [yField_toNat, packXYN_toNat]; omega)

@[simp] theorem nField_packXYN : nField (packXYN op x y n) = n :=
  BitVec.eq_of_toNat_eq (by rw [nField_toNat, packXYN_toNat]; omega)

end

section
variable {w : Word} {op : BitVec 4} (hop : (opField w).toNat = op.toNat)
include hop

theorem packNNN_fields : packNNN op (nnnField w) = w := by
  rw [opField_toNat] at hop
  apply BitVec.eq_of_toNat_eq
  rw [packNNN_toNat, nnnField_toNat]
  omega

theorem packXNN_fields {nn : Byte} (hnn : nnField w = nn) : packXNN op (xField w) nn = w := by
  rw [opField_toNat] at hop
  apply BitVec.eq_of_toNat_eq
  rw [← hnn, packXNN_toNat, xField_toNat, nnField_toNat]
  omega

theorem packXYN_fields {n : BitVec 4} (hn : (nField w).toNat = n.toNat) :
    packXYN op (xField w) (yField w) n = w := by
  rw [opField_toNat] at hop
  rw [nField_toNat] at hn
  apply BitVec.eq_of_toNat_eq
  rw [packXYN_toNat, xField_toNat, yField_toNat]
  omega

end

/-! ### Decode and encode are inverse to each other -/

/-- Each constructor's word has its own top nibble, and in a shared family its own low nibble or byte. -/
theorem decode_encode (i : Instr) : decode (encode i) = some i := by
  cases i with
  | cls | ret => rfl
  | jp | call | ldI | jpV0 | seImm | sneImm | ldImm | addImm | rnd | seReg | sneReg | drw => simp [encode, decode]
  | ldReg | or | and | xor | addReg | sub | shr | subn | shl => simp [encode, decode, decode8]
  | skp | sknp => simp [encode, decode, decodeE]
  | ldVxDt | ldVxK | ldDtVx | ldStVx | addI | ldF | ldB | ldMemVx | ldVxMem => simp [encode, decode, decodeF]

section
variable {w : Word} {i : Instr}

theorem encode_of_decode0 (h : decode0 w = some i) : encode i = w := by
  unfold decode0 at h
  split_ifs at h with hcls hret
  · cases h; exact hcls.symm
  · cases h; exact hret.symm

theorem encode_of_decode8 (hop : (opField w).toNat = 8) (h : decode8 w = some i) : encode i = w := by
  unfold decode8 at h
  split at h <;> cases h <;> exact packXYN_fields hop ‹(nField w).toNat = _›

theorem encode_of_decodeE (hop : (opField w).toNat = 14) (h : decodeE w = some i) : encode i = w := by
  unfold decodeE at h
  split_ifs at h <;> cases h <;> exact packXNN_fields hop ‹nnField w = _›

theorem encode_of_decodeF (hop : (opField w).toNat = 15) (h : decodeF w = some i) : encode i = w := by
  unfold decodeF at h
  repeat' split at h
  all_goals cases h <;> exact packXNN_fields hop ‹nnField w = _›

/-- The decoder's case `h_k` is the family with top nibble `k - 1`. -/
theorem encode_of_decode (h : decode w = some i) : encode i = w := by
  unfold decode at h
  split at h
  case h_1 => exact encode_of_decode0 h
  case h_2 hop | h_3 hop | h_11 hop | h_12 hop => cases h; exact packNNN_fields hop
  case h_4 hop | h_5 hop | h_7 hop | h_8 hop | h_13 hop => cases h; exact packXNN_fields hop rfl
  case h_6 hop | h_10 hop =>
    split_ifs at h with hn
    cases h
    exact packXYN_fields hop (congrArg BitVec.toNat hn)
  case h_9 hop => exact encode_of_decode8 hop h
  case h_14 hop => cases h; exact packXYN_fields hop rfl
  case h_15 hop => exact encode_of_decodeE hop h
  case h_16 =>
    have hop : (opField w).toNat = 15 := by grind [(opField w).isLt]
    exact encode_of_decodeF hop h

end

/-! ### The decoder accepts a word by the bits of its family's mask (R74) -/

/-- The mask that the opcode table's rows of one top nibble share. -/
def familyMask (op : BitVec 4) : Word :=
  match op.toNat with
  | 0x0 => 0xFFFF#16
  | 0x5 | 0x8 | 0x9 => 0xF00F#16
  | 0xE | 0xF => 0xF0FF#16
  | _ => 0xF000#16

theorem opField_familyMask : ∀ op, opField (familyMask op) = BitVec.allOnes 4 := by decide

theorem opField_and (w m : Word) : opField (w &&& m) = opField w &&& opField m := BitVec.extractLsb'_and

theorem nField_and (w m : Word) : nField (w &&& m) = nField w &&& nField m := BitVec.extractLsb'_and

theorem nnField_and (w m : Word) : nnField (w &&& m) = nnField w &&& nnField m := BitVec.extractLsb'_and

section
variable (w : Word)

theorem opField_masked : opField (w &&& familyMask (opField w)) = opField w := by
  rw [opField_and, opField_familyMask, BitVec.and_allOnes]

theorem nField_masked (h : familyMask (opField w) = 0xF00F#16) :
    nField (w &&& familyMask (opField w)) = nField w := by
  rw [h, nField_and]
  exact BitVec.and_allOnes

theorem nnField_masked (h : familyMask (opField w) = 0xF0FF#16) :
    nnField (w &&& familyMask (opField w)) = nnField w := by
  rw [h, nnField_and]
  exact BitVec.and_allOnes

end

section
variable {w w' : Word}

theorem isSome_decode8_congr (h : nField w = nField w') : (decode8 w).isSome = (decode8 w').isSome := by
  simp only [decode8, h]
  split <;> rfl

theorem isSome_decodeE_congr (h : nnField w = nnField w') : (decodeE w).isSome = (decodeE w').isSome := by
  simp only [decodeE, apply_ite Option.isSome, Option.isSome_some, h]

theorem isSome_decodeF_congr (h : nnField w = nnField w') : (decodeF w).isSome = (decodeF w').isSome := by
  simp only [decodeF, apply_ite Option.isSome, Option.isSome_some, h]

end

/-- Clearing the operand bits of a word does not change whether it decodes: a family looks at the whole word, at the low
nibble, at the low byte, or accepts every word. -/
theorem isSome_decode_masked (w : Word) : (decode (w &&& familyMask (opField w))).isSome = (decode w).isSome := by
  simp only [decode, opField_masked]
  split
  case h_1 hop =>
    have hall : familyMask (opField w) = BitVec.allOnes 16 := by simp [familyMask, hop]
    rw [hall, BitVec.and_allOnes]
  case h_6 hop | h_10 hop =>
    rw [nField_masked w (by simp [familyMask, hop])]
    split_ifs <;> rfl
  case h_9 hop => exact isSome_decode8_congr (nField_masked w (by simp [familyMask, hop]))
  case h_15 hop => exact isSome_decodeE_congr (nnField_masked w (by simp [familyMask, hop]))
  case h_16 =>
    have hop : (opField w).toNat = 15 := by grind [(opField w).isLt]
    exact isSome_decodeF_congr (nnField_masked w (by simp [familyMask, hop]))
  all_goals rfl

/-! ### The rows of the opcode table -/

theorem row_mask_and_pattern :
    ∀ r ∈ opcodeTable, r.mask = familyMask (opField r.pat) ∧ (decode r.pat).isSome = true := by decide

/-- Two rows differ on a bit that both masks name. -/
theorem row_eq_of_patterns_agree :
    ∀ r ∈ opcodeTable, ∀ r' ∈ opcodeTable, r.pat &&& r'.mask = r'.pat &&& r.mask → r = r' := by decide

theorem and_mask_of_matches {r : OpRow} {w : Word} (hw : r.matches w = true) : w &&& r.mask = r.pat := beq_iff_eq.mp hw

/-- A word of a row decodes, as the row's pattern does. -/
theorem isSome_decode_of_matches {r : OpRow} {w : Word} (hr : r ∈ opcodeTable) (hw : r.matches w = true) :
    (decode w).isSome = true := by
  obtain ⟨hmask, hpat⟩ := row_mask_and_pattern r hr
  have hand := and_mask_of_matches hw
  have hop : opField r.pat = opField w := by
    rw [← hand, hmask, opField_and, opField_familyMask, BitVec.and_allOnes]
  rw [← isSome_decode_masked, ← hop, ← hmask, hand, hpat]

theorem row_unique {r r' : OpRow} {w : Word} (hr : r ∈ opcodeTable) (hr' : r' ∈ opcodeTable)
    (hw : r.matches w = true) (hw' : r'.matches w = true) : r = r' := by
  have hagree : r.pat &&& r'.mask = r'.pat &&& r.mask := by
    rw [← and_mask_of_matches hw, ← and_mask_of_matches hw', BitVec.and_assoc, BitVec.and_assoc,
      BitVec.and_comm r.mask]
  exact row_eq_of_patterns_agree r hr r' hr' hagree

/-- Every instruction's word is of the instruction's own row. -/
theorem tableRow : ∀ i : Instr, Laws.TableRow.Statement i
  | .cls => Laws.TableRow.cls
  | .ret => Laws.TableRow.ret
  | .jp nnn => Laws.TableRow.jp nnn
  | .call nnn => Laws.TableRow.call nnn
  | .seImm x nn => Laws.TableRow.seImm x nn
  | .sneImm x nn => Laws.TableRow.sneImm x nn
  | .seReg x y => Laws.TableRow.seReg x y
  | .ldImm x nn => Laws.TableRow.ldImm x nn
  | .addImm x nn => Laws.TableRow.addImm x nn
  | .ldReg x y => Laws.TableRow.ldReg x y
  | .or x y => Laws.TableRow.or x y
  | .and x y => Laws.TableRow.and x y
  | .xor x y => Laws.TableRow.xor x y
  | .addReg x y => Laws.TableRow.addReg x y
  | .sub x y => Laws.TableRow.sub x y
  | .shr x y => Laws.TableRow.shr x y
  | .subn x y => Laws.TableRow.subn x y
  | .shl x y => Laws.TableRow.shl x y
  | .sneReg x y => Laws.TableRow.sneReg x y
  | .ldI nnn => Laws.TableRow.ldI nnn
  | .jpV0 nnn => Laws.TableRow.jpV0 nnn
  | .rnd x nn => Laws.TableRow.rnd x nn
  | .drw x y n => Laws.TableRow.drw x y n
  | .skp x => Laws.TableRow.skp x
  | .sknp x => Laws.TableRow.sknp x
  | .ldVxDt x => Laws.TableRow.ldVxDt x
  | .ldVxK x => Laws.TableRow.ldVxK x
  | .ldDtVx x => Laws.TableRow.ldDtVx x
  | .ldStVx x => Laws.TableRow.ldStVx x
  | .addI x => Laws.TableRow.addI x
  | .ldF x => Laws.TableRow.ldF x
  | .ldB x => Laws.TableRow.ldB x
  | .ldMemVx x => Laws.TableRow.ldMemVx x
  | .ldVxMem x => Laws.TableRow.ldVxMem x

/-! ### The number of words that decode -/

/-- The words that decode, as numbers, are the instructions. -/
def instrEquivDecodable : Instr ≃ {n : ℕ // n < 65536 ∧ (decode (BitVec.ofNat 16 n)).isSome = true} where
  toFun i := ⟨(encode i).toNat, (encode i).isLt, by simp [decode_encode]⟩
  invFun n := (decode (BitVec.ofNat 16 n)).get n.2.2
  left_inv i := by simp [decode_encode]
  right_inv := by
    rintro ⟨n, hn, hd⟩
    have henc : encode ((decode (BitVec.ofNat 16 n)).get hd) = BitVec.ofNat 16 n :=
      encode_of_decode (Option.some_get hd).symm
    apply Subtype.ext
    simp only [henc, BitVec.toNat_ofNat]
    exact Nat.mod_eq_of_lt hn

/-- An instruction is one of 34 tuples of operands. -/
def instrProxyEquiv := proxy_equiv% Instr

theorem natCard_bitVec (n : ℕ) : Nat.card (BitVec n) = 2 ^ n := by
  rw [Nat.card_congr BitVec.equivFin.toEquiv, Nat.card_fin]

/-- A sum over the constructors, of the products of their operands' sizes. -/
theorem natCard_instr : Nat.card Instr = 43954 := by
  rw [Nat.card_congr instrProxyEquiv.symm]
  simp only [Nat.card_sum, Nat.card_sigma, Finset.sum_const, Finset.card_univ, smul_eq_mul, Nat.card_unique,
    ← Nat.card_eq_fintype_card, natCard_bitVec]
  norm_num

theorem countP_range_eq_natCard (p : ℕ → Bool) (k : ℕ) :
    (List.range k).countP p = Nat.card {n // n < k ∧ p n = true} := by
  have hmem : ∀ n, n ∈ (Finset.range k).filter (p · = true) ↔ n < k ∧ p n = true := by simp
  rw [Nat.subtype_card _ hmem, ← Nat.count_eq_card_filter_range, Nat.count]
  simp only [Bool.decide_eq_true]

end Sys2Proof

namespace Sys2Proof.Claims

/-- Settles O2: the fields of a packed word are the operands it was packed from. -/
theorem decodeOfEncodeIsIdentity : Obligations.DecodeOfEncodeIsIdentity :=
  fun i _ => decode_encode i

/-- Settles O3: a word that decodes is packed from the fields its instruction took. -/
theorem encodeOfDecodeIsTheWord : Obligations.EncodeOfDecodeIsTheWord :=
  fun _ _ => encode_of_decode

/-- Settles O4: a decoded word is the word of its instruction, which is of the instruction's row; a word of a row
decodes as the row's pattern does; and two rows that share a word agree where both masks look. -/
theorem decodeAgreesWithOpcodeTable : Obligations.DecodeAgreesWithOpcodeTable := by
  refine ⟨fun w i h => ?_, fun w h r hr => ?_, fun w r hr r' hr' => row_unique hr hr'⟩
  · obtain ⟨r, hr, hname, hw⟩ := tableRow i rfl
    exact ⟨r, hr, encode_of_decode h ▸ hw, hname⟩
  · refine Bool.eq_false_iff.mpr fun hw => ?_
    cases h ▸ isSome_decode_of_matches hr hw

/-- Settles O1, word by word. -/
theorem specWordsDecode : Obligations.SpecWordsDecode := by
  unfold Obligations.SpecWordsDecode
  decide

/-- Settles O5: the words that decode are as many as the instructions, which encode to them one to one. -/
theorem decodableWordCount : Obligations.DecodableWordCount :=
  calc (List.range 65536).countP fun n => (decode (BitVec.ofNat 16 n)).isSome
    _ = Nat.card {n // n < 65536 ∧ (decode (BitVec.ofNat 16 n)).isSome = true} := countP_range_eq_natCard _ _
    _ = Nat.card Instr := (Nat.card_congr instrEquivDecodable).symm
    _ = 43954 := natCard_instr

end Sys2Proof.Claims
end

section
/-! PROOFS. The cycle (spec/30_encoding.md R70, spec/60_exceptions.md R214, R215): what a step is in each case of the
fetch, and that a running machine always has a next state. -/

namespace Sys2Proof.Machine

open Sys2Proof.Claims

theorem fetchWord_toNat (s : State) :
    s.fetchWord.toNat = (s.mem.read s.pc.toNat).toNat * 256 + (s.mem.read (s.pc.toNat + 1)).toNat :=
  wordOfBytes_toNat _ _

theorem exec_next (i : Instr) (s : State) : ∃ t, exec i s = .next t := by
  rcases exec_faultsOrCompletes i s with ⟨k, -, h⟩ | ⟨-, h⟩
  · exact ⟨_, h⟩
  · exact ⟨_, h⟩

section
variable {s : State}

theorem step_of_faulted {f : FaultInfo} (h : s.status = .faulted f) : step s = .fault (.halted f) := by
  simp only [step, fetchInstr, h]

theorem step_of_fetch_outOfBounds (hrun : s.status = .running) (hpc : 0xFFE < s.pc.toNat) :
    step s = .next (faultedAt s (.outOfBounds .fetch s.pc.toNat) none) := by
  have hb : s.fetchInBounds = false := decide_eq_false (by simp only [Config.topAddr]; omega)
  simp only [step, fetchInstr, hrun, hb]
  rfl

theorem fetchInBounds_of_le (hpc : s.pc.toNat ≤ 0xFFE) : s.fetchInBounds = true :=
  decide_eq_true (Nat.succ_le_succ hpc)

theorem step_of_unknown (hrun : s.status = .running) (hpc : s.pc.toNat ≤ 0xFFE) (hd : decode s.fetchWord = none) :
    step s = .next (faultedAt s .unknownOpcode (some s.fetchWord)) := by
  simp only [step, fetchInstr, hrun, fetchInBounds_of_le hpc, hd]
  rfl

theorem step_of_decoded {i : Instr} (hrun : s.status = .running) (hpc : s.pc.toNat ≤ 0xFFE)
    (hd : decode s.fetchWord = some i) : step s = exec i s := by
  simp only [step, fetchInstr, hrun, fetchInBounds_of_le hpc, hd, if_true]

theorem step_next_of_running (hrun : s.status = .running) : ∃ t, step s = .next t := by
  by_cases hpc : s.pc.toNat ≤ 0xFFE
  · cases hd : decode s.fetchWord with
    | none => exact ⟨_, step_of_unknown hrun hpc hd⟩
    | some i => exact step_of_decoded hrun hpc hd ▸ exec_next i s
  · exact ⟨_, step_of_fetch_outOfBounds hrun (Nat.lt_of_not_le hpc)⟩

end

/-- A step has a next state, or it is the stop of a machine that is already Faulted. -/
theorem step_next_or_halted (s : State) :
    (∃ t, step s = .next t) ∨ ∃ f, s.status = .faulted f ∧ step s = .fault (.halted f) := by
  cases hs : s.status with
  | running => exact .inl (step_next_of_running hs)
  | faulted f => exact .inr ⟨f, rfl, step_of_faulted hs⟩

end Sys2Proof.Machine

namespace Sys2Proof.Claims

open Sys2Proof.Machine

/-- Settles O10: a step is a next state or the stop of a Faulted machine, and a running machine is not Faulted. -/
theorem runningMachineAlwaysSteps : Obligations.RunningMachineAlwaysSteps := by
  refine ⟨fun s => step_next_of_running, fun s r h => ?_, fun s f h => ?_⟩
  · rcases step_next_or_halted s with ⟨t, e⟩ | ⟨info, -, e⟩
    · cases e.symm.trans h
    · cases e.symm.trans h
  · rcases step_next_or_halted s with ⟨t, e⟩ | ⟨info, hs, e⟩
    · cases e.symm.trans h
    · exact ⟨info, (Host.Outcome.fault.inj (e.symm.trans h)).symm, hs⟩

/-- Settles O6: the step in each case of the fetch, whose word is the one with that number. -/
theorem cycleFetchesDecodesExecutes : Obligations.CycleFetchesDecodesExecutes := by
  intro s
  refine ⟨fun f => step_of_faulted, step_of_fetch_outOfBounds, fun hrun hpc w hw => ?_⟩
  obtain rfl : s.fetchWord = w := BitVec.eq_of_toNat_eq ((fetchWord_toNat s).trans hw.symm)
  exact ⟨step_of_unknown hrun hpc, fun i => step_of_decoded hrun hpc⟩

end Sys2Proof.Claims
end

section
/-! PROOFS. Control transfer (spec/41_control_flow.md): the jumps and the skips change PC only (R100), a return undoes
its call through the stack they share (R101, R103), and a step that answers its own state repeats for ever (R232). -/

namespace Sys2Proof

/-! ### A packed word as its row's pattern plus the operands -/

theorem packXNN_toNat_base_add (op : BitVec 4) (x : Reg) (nn : Byte) :
    (packXNN op x nn).toNat = op.toNat * 0x1000 + 0x100 * x.toNat + nn.toNat := by
  rw [packXNN_toNat]
  omega

theorem packXYN_toNat_base_add (op : BitVec 4) (x y : Reg) (n : BitVec 4) :
    (packXYN op x y n).toNat = op.toNat * 0x1000 + n.toNat + 0x100 * x.toNat + 0x10 * y.toNat := by
  rw [packXYN_toNat]
  omega

end Sys2Proof

namespace Sys2Proof.Machine

open Sys2Proof.Claims

/-! ### Jumps, skips and steps that stay -/

section
variable (s : State)

/-- The frame of every jump and skip. -/
theorem onlyPc_jumpTo (p : Word) : OnlyPc s (s.jumpTo p) :=
  ⟨fun _ => rfl, rfl, ⟨rfl, fun _ => rfl⟩, ⟨rfl, rfl⟩, fun _ => rfl, fun _ => rfl, rfl, rfl, rfl⟩

/-- A skip on a condition: PC + 4 when it holds, else PC + 2, and nothing else. -/
theorem skipIf_decide (c : Prop) [Decidable c] :
    (s.skipIf (decide c)).pc = (if c then s.pc + 4#16 else s.pc + 2#16) ∧ OnlyPc s (s.skipIf (decide c)) := by
  constructor
  · simp only [skipIf_pc, decide_eq_true_eq]
  · exact skipIf_eq_jumpTo s _ ▸ onlyPc_jumpTo s _

end

section
variable {s : State}

theorem exec_jp_self {nnn : Addr12} (h : nnn.toNat = s.pc.toNat) : exec (.jp nnn) s = .next s := by
  have hpc : zext12 nnn = s.pc := BitVec.eq_of_toNat_eq ((zext12_toNat nnn).trans h)
  calc exec (.jp nnn) s
      _ = .next (s.jumpTo s.pc) := by rw [← hpc]; rfl
      _ = .next s := by rw [jumpTo_pc_self]

theorem exec_ldVxK_of_no_key (hk : s.key = none) (x : Reg) : exec (.ldVxK x) s = .next s := by
  rcases execLdVxK_cases s x with ⟨_, e⟩ | ⟨k, hk', _⟩
  · exact e
  · cases hk.symm.trans hk'

theorem slot_sp_congr {u : State} (hsp : u.sp = s.sp) (hstack : u.stack = s.stack) : u.slot u.sp = s.slot s.sp := by
  simp only [State.slot, hsp, hstack]

theorem run_of_step_self (h : step s = .next s) (k : Nat) : core.run k s = .next s := by
  have hstep : core.step s = .next s := h
  induction k with
  | zero => rfl
  | succ k ih => simp only [Host.Core.run, hstep, ih]

theorem runsSafely_of_step_self (hrun : s.status = .running) (h : step s = .next s) (k : Nat) :
    core.run k s = .next s ∧ runsSafely k s :=
  ⟨run_of_step_self h k, s, run_of_step_self h k, hrun⟩

end

end Sys2Proof.Machine

namespace Sys2Proof.Claims

open Sys2Proof.Machine

/-- Settles O26: the slot the return pops is the one the call pushed, as SP and the stack are the call's. -/
theorem returnUndoesCall : Obligations.ReturnUndoesCall := by
  intro s t u nnn hlt hcall hsp hstack
  obtain ⟨call, ret⟩ := callPushesAndReturnPops
  obtain ⟨_, e, htsp, htop, -⟩ := call s nnn hlt
  obtain rfl := Host.Outcome.next.inj (e.symm.trans hcall)
  have husp : u.sp.val = s.sp.val + 1 := hsp ▸ htsp
  obtain ⟨v, hv, hvsp, hvpc, -⟩ := ret u (by omega)
  exact ⟨v, hv, hvpc.trans ((slot_sp_congr hsp hstack).trans htop), Fin.ext (by omega)⟩

/-- Settles O30: at both instructions the step answers the state it began in. -/
theorem selfJumpAndKeyWaitRunForever : Obligations.SelfJumpAndKeyWaitRunForever := by
  constructor
  · intro s nnn hrun hpc hself hd
    exact runsSafely_of_step_self hrun ((step_of_decoded hrun hpc hd).trans (exec_jp_self hself))
  · intro s x hrun hpc hkey hd
    exact runsSafely_of_step_self hrun ((step_of_decoded hrun hpc hd).trans (exec_ldVxK_of_no_key hkey x))

/-- Settles O23: the target is the 12-bit address widened, and 0xFFF is above the last PC a fetch accepts. -/
theorem jumpSetsPc : Obligations.JumpSetsPc := by
  intro s nnn
  refine ⟨packNNN_toNat _ nnn, s.jumpTo (zext12 nnn), rfl, zext12_toNat nnn, onlyPc_jumpTo s _, fun hself => ?_,
    fun hnnn hrun => ?_⟩
  · exact Host.Outcome.next.inj (exec_jp_self hself)
  · have hpc : (s.jumpTo (zext12 nnn)).pc.toNat = 0xFFF := (zext12_toNat nnn).trans hnnn
    exact hpc ▸ step_of_fetch_outOfBounds hrun (by omega)

/-- Settles O27: the exact sum decides between the jump, where it fits PC, and the instruction's own fault. -/
theorem jumpWithOffset : Obligations.JumpWithOffset := by
  intro s nnn
  constructor
  · intro hle
    have hn : ownFault (.jpV0 nnn) s = none := if_neg (Nat.not_lt.mpr hle)
    have hpc : (BitVec.ofNat 16 (jumpSum nnn s)).toNat = jumpSum nnn s := Nat.mod_eq_of_lt (hle.trans_lt (by decide))
    exact ⟨_, exec_of_no_fault hn, hpc, onlyPc_jumpTo s _⟩
  · intro hgt
    exact exec_of_ownFault (i := .jpV0 nnn) (if_pos hgt)

/-- Settles O28: the four skips are one skip on four conditions. -/
theorem registerSkips : Obligations.RegisterSkips := by
  intro s x y nn
  exact ⟨packXNN_toNat_base_add 0x3#4 x nn, packXNN_toNat_base_add 0x4#4 x nn, packXYN_toNat_base_add 0x5#4 x y 0x0#4,
    packXYN_toNat_base_add 0x9#4 x y 0x0#4, ⟨_, rfl, skipIf_decide s _⟩, ⟨_, rfl, skipIf_decide s _⟩,
    ⟨_, rfl, skipIf_decide s _⟩, ⟨_, rfl, skipIf_decide s _⟩⟩

end Sys2Proof.Claims
end


section
/-! PROOFS. Register loads and the 8-bit ALU (spec/42_register_alu.md): each instruction is `writeReg` or `writeRegFlag`
of a result, so its frame is that of the shared write, and what is left is the result and the flag as numbers (R141). -/

namespace Sys2Proof.Machine

open Sys2Proof.Claims

/-! ### The write of a result and a flag (R142) -/

section
variable (s : State) (x : Reg) (b : Byte) (f : Bool)

/-- The frame of `writeRegFlag`: beyond the registers it is that of its last write, of VF. -/
theorem wroteRegFlag_advance_setResultAndFlag : WroteRegFlag x s (s.setResultAndFlag x b f).advance :=
  have ⟨hpc, _, hbeyond⟩ := wroteReg_advance_setReg (s.setReg x b) regF (flagByte f)
  ⟨hpc, fun _ hr hf => reg_setResultAndFlag_of_ne s b f hr hf, hbeyond⟩

theorem writeRegFlag_completes : ∃ t, writeRegFlag x b f s = .next t ∧ (x ≠ regF → t.reg x = b) ∧
    t.reg regF = flagByte f ∧ WroteRegFlag x s t :=
  ⟨_, rfl, reg_setResultAndFlag_result s b f, reg_setResultAndFlag_flag s x b f,
    wroteRegFlag_advance_setResultAndFlag s x b f⟩

end

/-! ### Flags and differences as numbers (R141) -/

theorem flagByte_decide (c : Prop) [Decidable c] : flagByte (decide c) = if c then 1 else 0 := by
  simp only [flagByte, decide_eq_true_eq]

theorem flagByte_carryOut (a b : Byte) : flagByte (carryOut a b) = if a.toNat + b.toNat > 255 then 1 else 0 :=
  flagByte_decide _

theorem flagByte_noBorrow (a b : Byte) : flagByte (noBorrow a b) = if a.toNat ≥ b.toNat then 1 else 0 :=
  flagByte_decide _

theorem flagByte_toNat (f : Bool) : (flagByte f).toNat = f.toNat := by cases f <;> rfl

theorem flagByte_lowBit_toNat (a : Byte) : (flagByte (lowBit a)).toNat = a.toNat % 2 := by
  rw [flagByte_toNat, lowBit, BitVec.getLsbD, Nat.toNat_testBit]
  omega

theorem flagByte_highBit_toNat (a : Byte) : (flagByte (highBit a)).toNat = a.toNat / 128 := by
  have := a.isLt
  rw [flagByte_toNat, highBit, BitVec.getLsbD, Nat.toNat_testBit]
  omega

/-- The difference modulo 256 of the exact difference, which may be negative. -/
theorem subByte_toNat_eq_emod (a b : Byte) : ((subByte a b).toNat : Int) = ((a.toNat : Int) - b.toNat) % 256 := by
  have := b.isLt
  rw [subByte_toNat]
  omega

/-- SUB and SUBN are one subtraction, of either operand from the other (R137, R139). -/
theorem writeRegFlag_subtract (s : State) (x : Reg) (a b : Byte) :
    ∃ t, writeRegFlag x (subByte a b) (noBorrow a b) s = .next t ∧
      (x ≠ regF → ((t.reg x).toNat : Int) = ((a.toNat : Int) - b.toNat) % 256) ∧
      t.reg regF = (if a.toNat ≥ b.toNat then 1 else 0) ∧ WroteRegFlag x s t := by
  obtain ⟨t, ht, hres, hflag, hframe⟩ := writeRegFlag_completes s x (subByte a b) (noBorrow a b)
  refine ⟨t, ht, fun hx => ?_, ?_, hframe⟩
  · rw [hres hx, subByte_toNat_eq_emod]
  · rw [hflag, flagByte_noBorrow]

end Sys2Proof.Machine

namespace Sys2Proof.Claims

open Sys2Proof.Machine

/-- Settles O16: both are `writeReg`, of the immediate and of the other register. -/
theorem loadsWriteTheirRegister : Obligations.LoadsWriteTheirRegister := by
  intro s x y nn
  exact ⟨packXNN_toNat_base_add 0x6#4 x nn, packXYN_toNat_base_add 0x8#4 x y 0x0#4,
    ⟨_, rfl, reg_advance_setReg_self s x _, wroteReg_advance_setReg s x _⟩,
    ⟨_, rfl, reg_advance_setReg_self s x _, wroteReg_advance_setReg s x _⟩⟩

/-- Settles O17: all four are `writeReg`; the sum is read as a number, the bitwise results bit by bit. -/
theorem addImmediateAndBitwiseResults : Obligations.AddImmediateAndBitwiseResults := by
  intro s x y nn
  refine ⟨⟨_, rfl, ?sum, wroteReg_advance_setReg s x _⟩, ⟨_, rfl, fun k => ?or, wroteReg_advance_setReg s x _⟩,
    ⟨_, rfl, fun k => ?and, wroteReg_advance_setReg s x _⟩, ⟨_, rfl, fun k => ?xor, wroteReg_advance_setReg s x _⟩⟩
  case sum => rw [reg_advance_setReg_self, addByte_toNat]
  case or => rw [reg_advance_setReg_self, BitVec.getLsbD_or]
  case and => rw [reg_advance_setReg_self, BitVec.getLsbD_and]
  case xor => rw [reg_advance_setReg_self, BitVec.getLsbD_xor]

/-- Settles O18: the result is the sum byte and the flag the carry, both of the old operands. -/
theorem addRegistersSetsCarry : Obligations.AddRegistersSetsCarry := by
  intro s x y
  obtain ⟨t, ht, hres, hflag, hframe⟩ :=
    writeRegFlag_completes s x (addByte (s.reg x) (s.reg y)) (carryOut (s.reg x) (s.reg y))
  refine ⟨packXYN_toNat_base_add 0x8#4 x y 0x4#4, t, ht, fun hx => ?_, ?_, hframe⟩
  · rw [hres hx, addByte_toNat]
  · rw [hflag, flagByte_carryOut]

/-- Settles O19: the one subtraction, with the operands in both orders. -/
theorem subtractsSetNotBorrow : Obligations.SubtractsSetNotBorrow := by
  intro s x y
  exact ⟨packXYN_toNat_base_add 0x8#4 x y 0x5#4, packXYN_toNat_base_add 0x8#4 x y 0x7#4,
    writeRegFlag_subtract s x (s.reg x) (s.reg y), writeRegFlag_subtract s x (s.reg y) (s.reg x)⟩

/-- Settles O20: halving and doubling of V[X], with the flag the remainder by 2 and the quotient by 128. -/
theorem shiftsOfVxSetShiftedOutBit : Obligations.ShiftsOfVxSetShiftedOutBit := by
  intro s x y
  obtain ⟨t, ht, hres, hflag, hframe⟩ := writeRegFlag_completes s x (shrByte (s.reg x)) (lowBit (s.reg x))
  obtain ⟨u, hu, hres', hflag', hframe'⟩ := writeRegFlag_completes s x (shlByte (s.reg x)) (highBit (s.reg x))
  refine ⟨packXYN_toNat_base_add 0x8#4 x y 0x6#4, packXYN_toNat_base_add 0x8#4 x y 0xE#4,
    ⟨t, ht, fun hx => ?_, ?_, hframe⟩, ⟨u, hu, fun hx => ?_, ?_, hframe'⟩⟩
  · rw [hres hx, shrByte_toNat]
  · rw [hflag, flagByte_lowBit_toNat]
  · rw [hres' hx, shlByte_toNat]
  · rw [hflag', flagByte_highBit_toNat]

end Sys2Proof.Claims
end

section
/-! PROOFS. The index register and the memory transfers (spec/43_index_memory.md): the frame of each of the three writes
(I, a block of memory, a block of registers) said once, a stored block read back at its offsets, and FX29's glyph
address as a number. -/

namespace Sys2Proof

/-- A packed word as the pattern of a row that fixes its low byte, plus the operand X. -/
theorem packXNN_toNat_pattern_add (op : BitVec 4) (x : Reg) (nn : Byte) :
    (packXNN op x nn).toNat = op.toNat * 0x1000 + nn.toNat + 0x100 * x.toNat := by
  rw [packXNN_toNat]
  omega

end Sys2Proof

namespace Sys2Proof.Machine

open Sys2Proof.Claims

/-! ### The frames -/

section
variable (s : State)

/-- The frame of ANNN, FX1E and FX29: I and PC, nothing else. -/
theorem wroteIndex_advance_setIndex (w : Word) : WroteIndex s (s.setIndex w).advance :=
  ⟨rfl, fun _ => rfl, ⟨rfl, fun _ => rfl⟩, ⟨rfl, rfl⟩, fun _ => rfl, fun _ => rfl, rfl, rfl, rfl⟩

/-- The frame of FX33 and FX55: PC and as many bytes from I on as are stored. -/
theorem stored_advance_storeAtIndex (bs : List Byte) :
    Stored (s.indexed 0) bs.length s (s.storeAtIndex bs).advance :=
  have hmem : SameMemOutside (s.indexed 0) bs.length s (s.storeAtIndex bs).advance :=
    fun _ ha => read_storeBytes_outside s.mem bs ha
  ⟨rfl, fun _ => rfl, rfl, ⟨rfl, fun _ => rfl⟩, ⟨rfl, rfl⟩, fun _ => rfl, hmem, rfl, rfl, rfl⟩

/-- The frame of FX65: PC moves on, and nothing beyond the registers changes. -/
theorem pc_and_sameBeyondRegs_advance_loadRegs (x : Reg) :
    (s.loadRegs x).advance.pc = s.pc + 2#16 ∧ SameBeyondRegs s (s.loadRegs x).advance := by
  simp [SameBeyondRegs, SameStack, SameTimers, SameScreen, SameMem, SameRun]

/-- After a block store from I on, `I + k` reads as the byte `k` of the block. -/
theorem read_storeAtIndex (bs : List Byte) {k : Nat} (hk : k < bs.length) :
    (s.storeAtIndex bs).mem.read (s.indexed k) = bs[k] := by
  have hoff : s.indexed k - s.indexed 0 = k := Nat.add_sub_cancel_left _ _
  have hge : s.indexed 0 ≤ s.indexed k := Nat.le_add_right _ _
  rw [storeAtIndex_mem, read_storeBytes, if_pos hge, hoff, List.getD_eq_getElem _ _ hk]

end

/-! ### The glyph address as a number (R162) -/

theorem fontDigitOf_masked (v : Byte) : fontDigitOf .masked v = v.toNat % 16 :=
  (BitVec.toNat_and v 0x0F#8).trans (Nat.and_two_pow_sub_one_eq_mod v.toNat 4)

/-- For a digit the two readings of FONT_DIGIT_ADDR agree (decision D6). -/
theorem fontDigitOf_of_le (c : Config.FontDigit) {v : Byte} (hv : v.toNat ≤ 15) : fontDigitOf c v = v.toNat := by
  cases c with
  | masked => rw [fontDigitOf_masked, Nat.mod_eq_of_lt (by omega)]
  | unmasked => rfl

/-- The glyph address fits I, so it is the exact sum, whatever FONT_BASE is. -/
theorem fontAddr_toNat (v : Byte) :
    (fontAddr v).toNat = Config.fontBase.val + 5 * fontDigitOf Config.fontDigitAddr v := by
  have := fontDigitOf_le Config.fontDigitAddr v
  exact Nat.mod_eq_of_lt (by unfold fontAddrOf; omega)

end Sys2Proof.Machine

namespace Sys2Proof.Claims

open Sys2Proof.Machine

/-- Settles O34: the three bytes stored are the decimal digits, read back at offsets 0, 1 and 2; the address of the last
one decides between the store and the fault. -/
theorem decimalStore : Obligations.DecimalStore := by
  intro s x
  refine ⟨packXNN_toNat_pattern_add 0xF#4 x 0x33#8, fun hle => ?completes, fun hgt => ?faults⟩
  case completes =>
    have hn : ownFault (.ldB x) s = none := if_neg (Nat.not_lt.mpr hle)
    have hread : ∀ {k : Nat} (hk : k < 3),
        (completed (.ldB x) s).mem.read (s.indexed k) = (decimalDigits (s.reg x))[k] :=
      fun hk => read_storeAtIndex s (decimalDigits (s.reg x)) hk
    have hv := (s.reg x).isLt
    refine ⟨_, exec_of_no_fault hn, ?hundreds, ?tens, ?ones,
      stored_advance_storeAtIndex s (decimalDigits (s.reg x))⟩
    case hundreds => rw [hread (by decide)]; exact Nat.mod_eq_of_lt (by omega)
    case tens => rw [hread (by decide)]; exact Nat.mod_eq_of_lt (by omega)
    case ones => rw [hread (by decide)]; exact Nat.mod_eq_of_lt (by omega)
  case faults => exact exec_of_ownFault (i := .ldB x) (if_pos hgt)

/-- Settles O35: the block stored is V0..VX, whose last address decides between the store and the fault. -/
theorem blockStore : Obligations.BlockStore := by
  intro s x
  constructor
  · intro hle
    have hn : ownFault (.ldMemVx x) s = none := if_neg (Nat.not_lt.mpr hle)
    exact ⟨_, exec_of_no_fault hn, fun r hr => read_storeAtIndex_regsUpTo s hr,
      length_regsUpTo s x ▸ stored_advance_storeAtIndex s (s.regsUpTo x)⟩
  · intro hgt
    exact exec_of_ownFault (i := .ldMemVx x) (if_pos hgt)

/-- Settles O36: the load takes V0..VX from memory and the rest from the old registers; its last address decides between
the load and the fault. -/
theorem blockLoad : Obligations.BlockLoad := by
  intro s x
  refine ⟨packXNN_toNat_pattern_add 0xF#4 x 0x65#8, fun hle => ?completes, fun hgt => ?faults⟩
  case completes =>
    have hexec : exec (.ldVxMem x) s = .next (s.loadRegs x).advance := by
      rcases execLdVxMem_cases s x with ⟨hgt, _⟩ | ⟨_, e⟩
      · omega
      · exact e
    refine ⟨_, hexec, fun r hr => ?_, fun r hr => ?_, pc_and_sameBeyondRegs_advance_loadRegs s x⟩
    · rw [reg_advance, reg_loadRegs, if_pos hr]
    · rw [reg_advance, reg_loadRegs, if_neg (Nat.not_le.mpr hr)]
  case faults => exact exec_of_ownFault (i := .ldVxMem x) (if_pos hgt)

/-- Settles O37: the load reads the bytes the store left, at the addresses the store used, as it has the store's memory
and I. -/
theorem blockLoadUndoesBlockStore : Obligations.BlockLoadUndoesBlockStore := by
  intro s t u x hle hstore hmem hidx
  obtain ⟨_, e, hstored, -, -, hti, -⟩ := (blockStore s x).1 hle
  obtain rfl := Host.Outcome.next.inj (e.symm.trans hstore)
  have hui : u.i = s.i := hidx.trans hti
  obtain ⟨v, hload, hloaded, -, -, hvi, -⟩ := (blockLoad u x).2.1 (hui ▸ hle)
  refine ⟨v, hload, fun r hr => ?_, hvi.trans hui⟩
  rw [hloaded r hr, hmem, State.indexed, hui]
  exact hstored r hr

/-- Settles O31: I takes the 12-bit address widened. -/
theorem loadIndex : Obligations.LoadIndex := by
  intro s nnn
  exact ⟨packNNN_toNat 0xA#4 nnn, _, rfl, zext12_toNat nnn, wroteIndex_advance_setIndex s _⟩

/-- Settles O32: the exact sum decides between the write, where it fits I, and the instruction's own fault. -/
theorem addToIndex : Obligations.AddToIndex := by
  intro s x
  constructor
  · intro hle
    have hn : ownFault (.addI x) s = none := if_neg (Nat.not_lt.mpr hle)
    exact ⟨_, exec_of_no_fault hn, Nat.mod_eq_of_lt (hle.trans_lt (by decide)), wroteIndex_advance_setIndex s _⟩
  · intro hgt
    exact exec_of_ownFault (i := .addI x) (if_pos hgt)

/-- Settles O33: the address is the exact sum of FONT_BASE and five times the digit, in each reading of the digit. -/
theorem fontAddressOfDigit : Obligations.FontAddressOfDigit := by
  intro s x
  refine ⟨_, rfl, wroteIndex_advance_setIndex s _, fun hv => ?digit, ?reading, fontAddr_le (s.reg x)⟩
  case digit => exact (fontAddr_toNat _).trans (by rw [fontDigitOf_of_le _ hv])
  case reading =>
    refine (fontAddr_toNat _).trans ?_
    cases Config.fontDigitAddr with
    | unmasked => rfl
    | masked => rw [fontDigitOf_masked]

end Sys2Proof.Claims
end

section
/-! PROOFS. The framebuffer instructions (spec/44_display.md): no two set bits of a sprite fall on one pixel, so the loops
of R181 flip each covered pixel once, and their collision flag says whether some pixel went from set to unset. -/

namespace Sys2Proof.Machine

open Sys2Proof.Claims

/-! ### The loops over a list of distinct pixels (R181) -/

section
variable {ps : List Pixel} (hps : ps.Nodup)
include hps

/-- Each listed pixel is flipped and no other one, from any framebuffer and flag on. -/
theorem get_foldl_blitPixel (acc : Framebuffer × Bool) (p : Pixel) :
    (ps.foldl blitPixel acc).1.get p = if p ∈ ps then !acc.1.get p else acc.1.get p := by
  induction ps generalizing acc with
  | nil => rfl
  | cons q ps ih =>
    obtain ⟨hq, hps⟩ := List.nodup_cons.mp hps
    rw [List.foldl_cons, ih hps, blitPixel, get_flip]
    by_cases hpq : p = q
    · simp [hpq, hq]
    · simp [hpq]

/-- The flag is raised by a listed pixel that was set: no earlier flip has touched it. -/
theorem snd_foldl_blitPixel (acc : Framebuffer × Bool) :
    (ps.foldl blitPixel acc).2 = true ↔ acc.2 = true ∨ ∃ p ∈ ps, acc.1.get p = true := by
  induction ps generalizing acc with
  | nil => simp
  | cons q ps ih =>
    obtain ⟨hq, hps⟩ := List.nodup_cons.mp hps
    have hflip : ∀ p ∈ ps, (acc.1.flip q).get p = acc.1.get p :=
      fun p hp => (get_flip acc.1 q p).trans (if_neg (ne_of_mem_of_not_mem hp hq))
    have hrest : (∃ p ∈ ps, (acc.1.flip q).get p = true) ↔ ∃ p ∈ ps, acc.1.get p = true :=
      exists_congr fun p => and_congr_right fun hp => by rw [hflip p hp]
    rw [List.foldl_cons, ih hps, blitPixel, hrest, Bool.or_eq_true, or_assoc, List.exists_mem_cons_iff]

theorem get_blit (fb : Framebuffer) (p : Pixel) :
    (blit fb ps).1.get p = if p ∈ ps then !fb.get p else fb.get p :=
  get_foldl_blitPixel hps (fb, false) p

/-- The collision flag is the change from set to unset of some pixel. -/
theorem snd_blit_iff (fb : Framebuffer) :
    (blit fb ps).2 = true ↔ ∃ p, fb.get p = true ∧ (blit fb ps).1.get p = false := by
  have hlisted : (blit fb ps).2 = true ↔ ∃ p ∈ ps, fb.get p = true := by
    simpa [blit] using snd_foldl_blitPixel hps (fb, false)
  refine hlisted.trans (exists_congr fun p => ?_)
  by_cases hp : p ∈ ps
  · simp [get_blit hps, hp]
  · simp [get_blit hps, hp]

end

/-! ### The pixels of a sprite (R182) -/

section
variable {x0 y0 : Nat} {b : Byte} {rows : List Byte} {p : Pixel}

theorem wrapPixel_eq_iff {x y : Nat} : wrapPixel x y = p ↔ p.1.val = x % 64 ∧ p.2.val = y % 32 :=
  Prod.ext_iff.trans (and_congr (Fin.ext_iff.trans eq_comm) (Fin.ext_iff.trans eq_comm))

theorem mem_rowPixels :
    p ∈ rowPixels x0 y0 b ↔ ∃ k < 8, b.getLsbD (7 - k) = true ∧ wrapPixel (x0 + k) y0 = p := by
  simp only [rowPixels, List.mem_filterMap, List.mem_range, Option.ite_none_right_eq_some, Option.some.injEq]

theorem mem_spritePixels :
    p ∈ spritePixels x0 y0 rows ↔ ∃ r, ∃ h : r < rows.length, p ∈ rowPixels x0 (y0 + r) rows[r] := by
  induction rows generalizing y0 with
  | nil => simp [spritePixels]
  | cons b bs ih =>
    rw [spritePixels, List.mem_append, ih]
    constructor
    · rintro (h | ⟨r, hr, h⟩)
      · exact ⟨0, Nat.succ_pos _, h⟩
      · exact ⟨r + 1, Nat.succ_lt_succ hr, Nat.add_right_comm y0 1 r ▸ h⟩
    · rintro ⟨_ | r, hr, h⟩
      · exact .inl h
      · exact .inr ⟨r, Nat.lt_of_succ_lt_succ hr, Nat.add_right_comm y0 1 r ▸ h⟩

/-- A row is 8 columns wide, fewer than the screen's 64. -/
theorem nodup_rowPixels : (rowPixels x0 y0 b).Nodup := by
  refine List.pairwise_filterMap.mpr (List.nodup_range.imp_of_mem fun {k k'} hk hk' hne p hp p' hp' hpp => hne ?_)
  obtain ⟨_, hp⟩ := Option.ite_none_right_eq_some.mp hp
  obtain ⟨_, hp'⟩ := Option.ite_none_right_eq_some.mp hp'
  obtain ⟨hx, _⟩ := wrapPixel_eq_iff.mp (Option.some.inj hp)
  obtain ⟨hx', _⟩ := wrapPixel_eq_iff.mp (Option.some.inj hp')
  have := List.mem_range.mp hk
  have := List.mem_range.mp hk'
  subst hpp
  omega

theorem snd_of_mem_rowPixels (h : p ∈ rowPixels x0 y0 b) : p.2.val = y0 % 32 := by
  obtain ⟨_, _, _, hp⟩ := mem_rowPixels.mp h
  exact (wrapPixel_eq_iff.mp hp).2

/-- A sprite with no more rows than the screen has no two set bits on one pixel. -/
theorem nodup_spritePixels (hlen : rows.length ≤ 32) : (spritePixels x0 y0 rows).Nodup := by
  induction rows generalizing y0 with
  | nil => exact List.nodup_nil
  | cons b bs ih =>
    rw [List.length_cons] at hlen
    refine List.nodup_append'.mpr ⟨nodup_rowPixels, ih (by omega), fun p hrow hrest => ?_⟩
    obtain ⟨r, hr, hrest⟩ := mem_spritePixels.mp hrest
    have hy := snd_of_mem_rowPixels hrow
    have hy' := snd_of_mem_rowPixels hrest
    omega

end

/-! ### The sprite DXYN draws -/

section
variable (s : State) (x y : Reg) (n : BitVec 4)

/-- The pixels DXYN draws at (V[X], V[Y]): those of the `n` bytes from I on. -/
def drawnPixels : List Pixel :=
  spritePixels (s.reg x).toNat (s.reg y).toNat (s.mem.loadBytes (s.indexed 0) n.toNat)

theorem mem_drawnPixels {p : Pixel} :
    p ∈ drawnPixels s x y n ↔ covers s (s.reg x).toNat (s.reg y).toNat n.toNat p := by
  simp only [drawnPixels, mem_spritePixels, mem_rowPixels, wrapPixel_eq_iff, length_loadBytes, getElem_loadBytes]
  constructor
  · rintro ⟨r, hr, k, hk, hb, hx, hy⟩
    exact ⟨r, k, hr, hk, hx, hy, hb⟩
  · rintro ⟨r, k, hr, hk, hx, hy, hb⟩
    exact ⟨r, hr, k, hk, hb, hx, hy⟩

theorem nodup_drawnPixels : (drawnPixels s x y n).Nodup := by
  have := n.isLt
  exact nodup_spritePixels (by rw [length_loadBytes]; omega)

theorem get_completed_drw (p : Pixel) : (completed (.drw x y n) s).fb.get p =
    if p ∈ drawnPixels s x y n then !s.fb.get p else s.fb.get p := get_blit (nodup_drawnPixels s x y n) s.fb p

theorem completed_drw_regF :
    (completed (.drw x y n) s).reg regF = flagByte (blit s.fb (drawnPixels s x y n)).2 :=
  reg_drawSprite_flag _ _ _ _

end

section
variable {s t : State}

theorem ownFault_drw_of_fits {x y : Reg} {n : BitVec 4} (h : n.toNat = 0 ∨ s.i.toNat + n.toNat - 1 ≤ 0xFFF) :
    ownFault (.drw x y n) s = none := if_neg (by omega)

/-- Memory and I decide what a sprite covers. -/
theorem covers_congr (hmem : SameMem s t) (hi : t.i = s.i) {a b m : Nat} {p : Pixel} :
    covers t a b m p ↔ covers s a b m p := by
  simp only [covers, State.indexed, hi, hmem _]

end

end Sys2Proof.Machine

namespace Sys2Proof.Claims

open Sys2Proof.Machine

/-- Settles O40: the drawn pixels are distinct and are those that are covered, and the frame is that of the write of VF to
the state with the new screen. -/
theorem drawFlipsCoveredPixelsAndDetectsCollision : Obligations.DrawFlipsCoveredPixelsAndDetectsCollision := by
  intro s x y n hfits
  have hcollision := snd_blit_iff (nodup_drawnPixels s x y n) s.fb
  obtain ⟨hpc, hregs, hi, hstack, htimers, -, hmem, hrun⟩ :=
    wroteReg_advance_setReg (s.setScreen (blit s.fb (drawnPixels s x y n)).1) regF
      (flagByte (blit s.fb (drawnPixels s x y n)).2)
  refine ⟨_, exec_of_no_fault (ownFault_drw_of_fits hfits), fun p hp => ?covered, fun p hp => ?uncovered, fun hunset => ?one,
    fun hkept => ?zero, hpc, hregs, hi, hstack, htimers, hmem, hrun⟩
  case covered => rw [get_completed_drw, if_pos ((mem_drawnPixels s x y n).mpr hp)]
  case uncovered => rw [get_completed_drw, if_neg (mt (mem_drawnPixels s x y n).mp hp)]
  case one => rw [completed_drw_regF, hcollision.mpr hunset, flagByte_true]
  case zero =>
    have hnone : (blit s.fb (drawnPixels s x y n)).2 = false := by
      refine Bool.eq_false_iff.mpr fun h => ?_
      obtain ⟨p, hset, hunset⟩ := hcollision.mp h
      exact Bool.false_ne_true (hunset.symm.trans (hkept p hset))
    rw [completed_drw_regF, hnone, flagByte_false]

/-- Settles O42: the first draw leaves all that decides the sprite's place and bits, so the second one flips the same
pixels back, and a pixel the second one unsets is one the first one set. -/
theorem drawingTwiceRestoresScreen : Obligations.DrawingTwiceRestoresScreen := by
  intro s t x y n hx hy hfits h
  obtain ⟨_, e, hcov, huncov, -, -, -, hregs, hi, -, -, hmem, -⟩ :=
    drawFlipsCoveredPixelsAndDetectsCollision s x y n hfits
  obtain rfl := Host.Outcome.next.inj (h.symm.trans e)
  obtain ⟨u, hu, hcov', huncov', hone, hzero, -⟩ :=
    drawFlipsCoveredPixelsAndDetectsCollision t x y n (hi ▸ hfits)
  simp only [covers_congr hmem hi, hregs x hx, hregs y hy] at hcov' huncov'
  have hback : ∀ p, u.fb.get p = s.fb.get p := by
    intro p
    by_cases hp : covers s (s.reg x).toNat (s.reg y).toNat n.toNat p
    · rw [hcov' p hp, hcov p hp, Bool.not_not]
    · rw [huncov' p hp, huncov p hp]
  refine ⟨u, hu, hback, fun h1 => ?_, fun ⟨p, hunset, hset⟩ => hone ⟨p, hset, (hback p).trans hunset⟩⟩
  by_contra hnone
  have hkept : ∀ p, t.fb.get p = true → u.fb.get p = true := fun p hset =>
    (hback p).trans (eq_true_of_ne_false fun hunset => hnone ⟨p, hunset, hset⟩)
  exact absurd (h1.symm.trans (hzero hkept)) (by decide)

/-- Settles O39: the screen is replaced by the blank one. -/
theorem clearScreen : Obligations.ClearScreen :=
  ⟨rfl, fun _ => ⟨_, rfl, get_blank, rfl, fun _ => rfl, rfl, ⟨rfl, fun _ => rfl⟩, ⟨rfl, rfl⟩, fun _ => rfl,
    rfl, rfl, rfl⟩⟩

/-- Settles O41: the premise is the instruction's own fault condition. -/
theorem drawOutOfBoundsFaults : Obligations.DrawOutOfBoundsFaults := by
  intro s x y n hpos hgt
  exact exec_of_ownFault (i := .drw x y n) (if_pos ⟨hpos, hgt⟩)

end Sys2Proof.Claims
end

section
/-! PROOFS. The timer and keypad instructions (spec/45_timers_keys.md): the frame of a write to a timer, the two key skips
as a skip or an advance on the pressed key, and the key code that FX0A writes to its register. -/

namespace Sys2Proof.Machine

open Sys2Proof.Claims

/-! ### The frame of a write to a timer (R191, R192) -/

/-- PC moved on by 2, and nothing but it and the timers changed. -/
def WroteTimers (s t : State) : Prop :=
  t.pc = s.pc + 2#16 ∧ SameRegs s t ∧ t.i = s.i ∧ SameStack s t ∧ SameScreen s t ∧ SameMem s t ∧ SameRun s t

/-- The frame of FX15 and FX18: each sets one of the two timers and keeps the other. -/
theorem wroteTimers_advance (s : State) (d e : Byte) : WroteTimers s { s with dt := d, st := e }.advance :=
  ⟨rfl, fun _ => rfl, rfl, ⟨rfl, fun _ => rfl⟩, fun _ => rfl, fun _ => rfl, rfl, rfl, rfl⟩

/-! ### The key skips (R193, R194) -/

section
variable {s : State} {x : Reg}

theorem keyIs_of_not_pressed (hp : ¬ pressed x s) : keyIs s.key (s.reg x) = false :=
  Bool.eq_false_iff.mpr (mt (keyIs_iff_pressed x).mp hp)

theorem execSkp_of_pressed (hp : pressed x s) : execSkp x s = .next s.skip := by
  rw [execSkp, (keyIs_iff_pressed x).mpr hp]; rfl

theorem execSkp_of_not_pressed (hp : ¬ pressed x s) : execSkp x s = .next s.advance := by
  rw [execSkp, keyIs_of_not_pressed hp]; rfl

theorem execSknp_of_pressed (hp : pressed x s) : execSknp x s = .next s.advance := by
  rw [execSknp, (keyIs_iff_pressed x).mpr hp]; rfl

theorem execSknp_of_not_pressed (hp : ¬ pressed x s) : execSknp x s = .next s.skip := by
  rw [execSknp, keyIs_of_not_pressed hp]; rfl

/-- The keys' codes end at 15 (decision D16). -/
theorem reg_le_of_pressed (hp : pressed x s) : (s.reg x).toNat ≤ 15 := by
  obtain ⟨k, -, hk⟩ := hp
  omega

end

/-! ### The key wait (R195) -/

theorem keyCode_toNat (k : Fin 16) : (keyCode k).toNat = k.val := Nat.mod_eq_of_lt (by omega)

theorem exec_ldVxK_of_key {s : State} {k : Fin 16} (hk : s.key = some k) (x : Reg) :
    exec (.ldVxK x) s = .next (s.setReg x (keyCode k)).advance := by
  rcases execLdVxK_cases s x with ⟨hnone, _⟩ | ⟨k', hk', e⟩
  · cases hnone.symm.trans hk
  · obtain rfl := Option.some.inj (hk'.symm.trans hk)
    exact e

end Sys2Proof.Machine

namespace Sys2Proof.Claims

open Sys2Proof.Machine

/-- Settles O43: FX07 is a register write of DT, and the other two write a register's byte to their timer. -/
theorem timerInstructions : Obligations.TimerInstructions := by
  intro s x
  exact ⟨packXNN_toNat_pattern_add 0xF#4 x 0x07#8, packXNN_toNat_pattern_add 0xF#4 x 0x15#8,
    packXNN_toNat_pattern_add 0xF#4 x 0x18#8,
    ⟨_, rfl, reg_advance_setReg_self s x s.dt, wroteReg_advance_setReg s x s.dt⟩,
    ⟨_, rfl, rfl, rfl, wroteTimers_advance s (s.reg x) s.st⟩,
    ⟨_, rfl, rfl, rfl, wroteTimers_advance s s.dt (s.reg x)⟩⟩

/-- Settles O44: each of the two skips or advances as the key is pressed or not, and both ways write PC only. -/
theorem keySkips : Obligations.KeySkips := by
  intro s x
  refine ⟨fun hp => ?pressed, fun hp => ?not_pressed, fun hgt hp => ?above_fifteen⟩
  case pressed =>
    exact ⟨⟨s.skip, execSkp_of_pressed hp, rfl, onlyPc_jumpTo s _⟩,
      ⟨s.advance, execSknp_of_pressed hp, rfl, onlyPc_jumpTo s _⟩⟩
  case not_pressed =>
    exact ⟨⟨s.advance, execSkp_of_not_pressed hp, rfl, onlyPc_jumpTo s _⟩,
      ⟨s.skip, execSknp_of_not_pressed hp, rfl, onlyPc_jumpTo s _⟩⟩
  case above_fifteen => exact absurd (reg_le_of_pressed hp) (Nat.not_le.mpr hgt)

/-- Settles O45: the latch decides between the same state and a register write of the key's code. -/
theorem keyWait : Obligations.KeyWait := by
  constructor
  · intro s x hnone
    exact exec_ldVxK_of_no_key hnone x
  · intro s x k hk
    have hreg : ((s.setReg x (keyCode k)).advance.reg x).toNat = k.val := by
      rw [reg_advance_setReg_self, keyCode_toNat]
    exact ⟨_, exec_ldVxK_of_key hk x, hreg, hk, wroteReg_advance_setReg s x (keyCode k)⟩

end Sys2Proof.Claims
end

section
/-! PROOFS. Faults, the operations beside the cycle and the frame (spec/60_exceptions.md R211 to R229): what a faulting
step records, what each operation answers on a running and on a Faulted machine, and the timers after any number of
ticks. -/

namespace Sys2Proof.Machine

open Sys2Proof.Claims

theorem completed_status (i : Instr) (s : State) : (completed i s).status = s.status := effect_status s

/-! ### What each operation answers on a running and on a Faulted machine (R214) -/

section
variable {s : State}

theorem whileRunning_of_running (hrun : s.status = .running) (go : Result) : s.whileRunning go = go := by
  simp only [State.whileRunning, hrun]

theorem whileRunning_of_faulted {f : FaultInfo} (h : s.status = .faulted f) (go : Result) :
    s.whileRunning go = .fault (.halted f) := by
  simp only [State.whileRunning, h]

/-- An operation that answers a next state was one of a running machine. -/
theorem whileRunning_eq_next {go : Result} {t : State} (h : s.whileRunning go = .next t) :
    s.status = .running ∧ go = .next t := by
  cases hs : s.status with
  | running => exact ⟨rfl, (whileRunning_of_running hs go).symm.trans h⟩
  | faulted f => cases (whileRunning_of_faulted hs go).symm.trans h

theorem tick_of_running (hrun : s.status = .running) :
    tick s = .next { s with dt := decay s.dt, st := decay s.st } := whileRunning_of_running hrun _

theorem setKey_of_running (hrun : s.status = .running) (k : KeyLatch) : setKey k s = .next { s with key := k } :=
  whileRunning_of_running hrun _

theorem readFb_of_running (hrun : s.status = .running) : readFb s = some s.fb := by
  simp only [readFb, hrun]

theorem readFb_of_faulted {f : FaultInfo} (h : s.status = .faulted f) : readFb s = none := by
  simp only [readFb, h]

theorem toneOn_of_running (hrun : s.status = .running) : toneOn s = some (decide (s.st ≠ 0)) := by
  simp only [toneOn, hrun]

theorem toneOn_of_faulted {f : FaultInfo} (h : s.status = .faulted f) : toneOn s = none := by
  simp only [toneOn, h]

end

/-! ### The timers after any number of ticks (R221, R222) -/

/-- A decay is the saturating predecessor. -/
theorem decay_toNat (t : Byte) : (decay t).toNat = t.toNat - 1 := by
  by_cases h : t = 0
  · subst h; rfl
  · rw [decay, if_neg h, BitVec.toNat_ofNat]
    exact Nat.mod_eq_of_lt (by omega)

theorem iterate_decay_toNat (n : Nat) (t : Byte) : (decay^[n] t).toNat = t.toNat - n := by
  induction n generalizing t with
  | zero => rfl
  | succ n ih =>
    calc (decay^[n] (decay t)).toNat
        _ = (decay t).toNat - n := ih _
        _ = t.toNat - (n + 1) := by rw [decay_toNat]; omega

/-- The ticks decay each timer on its own and leave the machine running. -/
theorem runTicks_of_running {s : State} (hrun : s.status = .running) (n : Nat) :
    runTicks n s = .next { s with dt := decay^[n] s.dt, st := decay^[n] s.st } := by
  induction n generalizing s with
  | zero => rfl
  | succ n ih =>
    rw [runTicks, tick_of_running hrun]
    exact ih hrun

/-- The boundary of a frame: the sampled key, then the ticks. -/
theorem atBoundary_of_running {s : State} (hrun : s.status = .running) (b : Boundary) :
    atBoundary b s = .next { s with key := b.key, dt := decay^[b.ticks] s.dt, st := decay^[b.ticks] s.st } := by
  rw [atBoundary, setKey_of_running hrun]
  exact runTicks_of_running (s := { s with key := b.key }) hrun b.ticks

/-! ### The invariant after reset (R240, R242) -/

/-- After reset only memory depends on the ROM, so its canonical form is all the invariant asks. -/
theorem inv_reset_setMem {m : Memory} (hm : m.wf = true) : (State.reset.setMem m).Inv where
  memWf := hm
  pcBound := (by decide : State.reset.pc.toNat ≤ 0x1002)
  indexBound := Nat.zero_le _
  slotBound := (by decide : ∀ k, (State.reset.slot k).toNat ≤ 0x1000)
  slotZero := rfl
  statusWf := rfl

/-- A reset that answers a state had a ROM that fits between 0x200 and the end of memory. -/
theorem resetWith_eq_next {rom : List Byte} {t : State} (h : resetWith rom = .next t) :
    rom.length ≤ Config.maxRomBytes ∧ t = State.reset.setMem (State.reset.mem.storeBytes Config.programBase rom) := by
  unfold resetWith at h
  split at h
  next hlen => exact ⟨hlen, (Host.Outcome.next.inj h).symm⟩
  next => cases h

end Sys2Proof.Machine

namespace Sys2Proof.Claims

open Sys2Proof.Machine

/-- Settles O8: of the three kinds of step, the two faults of the fetch record what they found, and an instruction that
leaves the machine not running took its own fault, as a completed one keeps the status. -/
theorem faultingStepIsAtomic : Obligations.FaultingStepIsAtomic := by
  intro s t h hstop
  obtain ⟨hrun, ⟨hpc, e⟩ | ⟨hpc, _, e⟩ | ⟨hpc, i, hd, e⟩⟩ := step_cases h
  · exact ⟨_, Host.Outcome.next.inj e, rfl, .inl ⟨rfl, rfl, hpc⟩⟩
  · exact ⟨_, Host.Outcome.next.inj e, rfl, .inr ⟨rfl, hpc⟩⟩
  · rcases exec_next_cases e with ⟨k, _, ht⟩ | ⟨_, rfl⟩
    · exact ⟨_, ht, rfl, .inr ⟨congrArg some (encode_of_decode hd), hpc⟩⟩
    · exact absurd ((completed_status i s).trans hrun) hstop

/-- Settles O9: an instruction takes its own fault, or completes with the status of before. -/
theorem instructionFaultsExactlyOnItsCondition : Obligations.InstructionFaultsExactlyOnItsCondition := by
  intro i s
  exact ⟨fun _ => exec_of_ownFault, fun hn => ⟨_, exec_of_no_fault hn, completed_status i s⟩⟩

/-- Settles O13: tick and setKey write nothing the invariant speaks of, and a ROM that fits is stored inside memory. -/
theorem hostOperationsKeepInvariant : Obligations.HostOperationsKeepInvariant := by
  refine ⟨fun s t hs h => ?tick, fun k s t hs h => ?setKey, fun rom t h => ?reset⟩
  case tick =>
    obtain ⟨_, e⟩ := whileRunning_eq_next h
    obtain rfl := Host.Outcome.next.inj e
    exact { hs with }
  case setKey =>
    obtain ⟨_, e⟩ := whileRunning_eq_next h
    obtain rfl := Host.Outcome.next.inj e
    exact { hs with }
  case reset =>
    obtain ⟨hlen, rfl⟩ := resetWith_eq_next h
    have hfits : Config.programBase + rom.length ≤ Config.memSize := Nat.add_le_add_left hlen _
    exact inv_reset_setMem (wf_storeBytes hfits wf_nil)

/-- Settles O54: the batch ends in a running state, where the boundary sets the key and decays the timers. -/
theorem frameIsBatchThenBoundary : Obligations.FrameIsBatchThenBoundary := by
  intro budget b s u hbatch hrun
  have hframe : runFrame budget b s = atBoundary b u := by rw [runFrame, hbatch]; rfl
  exact ⟨_, hframe.trans (atBoundary_of_running hrun b), rfl, iterate_decay_toNat _ _, iterate_decay_toNat _ _⟩

/-- Settles O7: each operation looks at the status first. -/
theorem faultedMachineHasNoStep : Obligations.FaultedMachineHasNoStep := by
  intro s f h
  exact ⟨step_of_faulted h, whileRunning_of_faulted h _, fun _ => whileRunning_of_faulted h _,
    readFb_of_faulted h, toneOn_of_faulted h, h⟩

/-- Settles O48: a tick writes the two timers, each with its saturating predecessor. -/
theorem tickDecaysTimers : Obligations.TickDecaysTimers := by
  intro s hrun
  exact ⟨_, tick_of_running hrun, decay_toNat s.dt, decay_toNat s.st,
    rfl, fun _ => rfl, rfl, ⟨rfl, fun _ => rfl⟩, fun _ => rfl, fun _ => rfl, rfl, rfl, rfl⟩

/-- Settles O49: the answers of the three operations on a running machine; a byte is zero as its number is. -/
theorem setKeyAndViews : Obligations.SetKeyAndViews := by
  refine ⟨fun s k hrun => setKey_of_running hrun k, fun s => readFb_of_running, fun s hrun => ?_⟩
  have hzero : s.st = 0 ↔ s.st.toNat = 0 := BitVec.toNat_inj.symm
  rw [toneOn_of_running hrun, Option.some_inj, decide_eq_true_iff]
  exact not_congr hzero

end Sys2Proof.Claims
end

section
/-! PROOFS. Reset and the batch of cycles (spec/70_reset_and_hazards.md): the contents of memory after a reset with a
ROM, region by region (R240 to R242), and what a batch keeps because each of its steps does (R248). -/

namespace Sys2Proof.Machine

/-! ### Memory after reset, by region (R57, R241) -/

section
variable (base : Fin 433) (table : Vector Byte 80) {a : Nat}

theorem initByteOf_of_programBase_le (ha : Config.programBase ≤ a) : initByteOf base table a = 0 := if_pos ha

/-- The font table lies wholly below the program region, whatever its base. -/
theorem font_lt_programBase {k : Nat} (hk : k < Config.fontBytes) : base.val + k < Config.programBase := by
  have := base.isLt
  simp only [Config.programBase, Config.fontBytes] at hk ⊢
  omega

theorem initByteOf_font {k : Nat} (hk : k < Config.fontBytes) : initByteOf base table (base.val + k) = table[k] := by
  have hbelow : ¬ Config.programBase ≤ base.val + k := Nat.not_le.mpr (font_lt_programBase base hk)
  simp [initByteOf, hbelow, hk]

theorem initByteOf_outside_font (ha : a < base.val ∨ base.val + Config.fontBytes ≤ a) :
    initByteOf base table a = 0 := by
  have hout : ¬ (base.val ≤ a ∧ a - base.val < Config.fontBytes) := by
    simp only [Config.fontBytes] at ha ⊢
    omega
  rw [initByteOf, dif_neg hout, ite_self]

end

theorem resetWith_of_fits {rom : List Byte} (h : rom.length ≤ Config.maxRomBytes) :
    resetWith rom = .next (State.reset.setMem (State.reset.mem.storeBytes Config.programBase rom)) := if_pos h

theorem resetWith_of_too_large {rom : List Byte} (h : Config.maxRomBytes < rom.length) :
    resetWith rom = .refused (.romTooLarge rom.length) := if_neg (Nat.not_le.mpr h)

/-- From 0x200 on memory holds the ROM, then zeros. -/
theorem read_reset_rom (rom : List Byte) {a : Nat} (ha : Config.programBase ≤ a) :
    (State.reset.mem.storeBytes Config.programBase rom).read a = rom.getD (a - Config.programBase) 0 := by
  have hzero : State.reset.mem.read a = 0 := initByteOf_of_programBase_le _ _ ha
  rw [read_storeBytes, if_pos ha, hzero]

/-- Below 0x200 memory is as after a reset with no ROM. -/
theorem read_reset_below_rom (rom : List Byte) {a : Nat} (ha : a < Config.programBase) :
    (State.reset.mem.storeBytes Config.programBase rom).read a = initByte a :=
  read_storeBytes_outside _ rom (.inl ha)

/-! ### What a batch of cycles keeps (R229, R248) -/

theorem andThen_eq_next {o : Result} {go : State → Result} {t : State} (h : andThen o go = .next t) :
    ∃ u, o = .next u ∧ go u = .next t := by
  cases o with
  | next u => exact ⟨u, rfl, h⟩
  | fault | refused => cases h

/-- What every step keeps, a batch keeps, whatever its length. -/
theorem runCycles_keeps {P : State → Prop} (hstep : ∀ s t, step s = .next t → P s → P t) {k : Nat} {s t : State}
    (h : runCycles k s = .next t) (hs : P s) : P t := by
  induction k generalizing s with
  | zero => exact Host.Outcome.next.inj h ▸ hs
  | succ k ih =>
    obtain ⟨u, hu, hrest⟩ := andThen_eq_next h
    exact ih hrest (hstep s u hu hs)

theorem exec_key {i : Instr} {s t : State} (h : exec i s = .next t) : t.key = s.key := by
  rcases exec_next_cases h with ⟨k, _, rfl⟩ | ⟨_, rfl⟩
  · rfl
  · exact effect_key s

/-- A step leaves the key latch: a fault writes the status only, and no instruction writes KEY. -/
theorem step_key {s t : State} (h : step s = .next t) : t.key = s.key := by
  obtain ⟨_, ⟨_, e⟩ | ⟨_, _, e⟩ | ⟨_, i, _, e⟩⟩ := step_cases h
  · cases e; rfl
  · cases e; rfl
  · exact exec_key e

end Sys2Proof.Machine

namespace Sys2Proof.Claims

open Sys2Proof.Machine

/-- Settles O51: the ROM is one block store from 0x200 on, over the reset contents, which are zero but for the font. -/
theorem resetLoadsFontAndRom : Obligations.ResetLoadsFontAndRom := by
  intro rom hlen
  refine ⟨_, resetWith_of_fits hlen, rfl, fun a ha => ?rom, fun k hk => ?font, fun a ha hout => ?zero⟩
  case rom => exact read_reset_rom rom ha
  case font => exact (read_reset_below_rom rom (font_lt_programBase _ hk)).trans (initByteOf_font _ _ hk)
  case zero => exact (read_reset_below_rom rom ha).trans (initByteOf_outside_font _ _ hout)

/-- Settles O53: by induction on the batch, as each step keeps the latch. -/
theorem keyIsConstantInABatch : Obligations.KeyIsConstantInABatch := by
  intro k s t h
  exact runCycles_keeps (P := fun u => u.key = s.key) (fun _ _ hstep hu => (step_key hstep).trans hu) h rfl

/-- Settles O11: the reset state is its own with the empty memory, which is canonical. -/
theorem resetMeetsInvariant : Obligations.ResetMeetsInvariant := inv_reset_setMem wf_nil

/-- Settles O50: each field as the reset sets it; registers, slots and pixels are replicated zeros. -/
theorem resetState : Obligations.ResetState :=
  ⟨fun _ => Vector.getElem_replicate _, rfl, rfl, rfl, rfl, rfl, fun _ => Vector.getElem_replicate _, rfl,
    get_blank, rfl⟩

/-- Settles O52: the reset looks at the length of the ROM first. -/
theorem oversizedRomIsRefused : Obligations.OversizedRomIsRefused := fun _ => resetWith_of_too_large

end Sys2Proof.Claims
end
